-- ==== Sys2Proof/Word.lean ====
section
/-! DEFINITION. The words and numbers of the SP-416: bytes, and the numbering of bars, ports and rows
(spec 00, Conventions). -/

namespace Sys2Proof

/-- One byte of a frame, a parameter block or image memory. -/
abbrev Byte := BitVec 8

/-- A print bar, 0 to 3. -/
abbrev BarId := Fin 4

/-- A head port, 0 to 15. -/
abbrev PortId := Fin 16

/-- A row channel, 0 to 31. -/
abbrev RowId := Fin 32

/-- A drop code: 0 no drop, 1 small, 2 medium, 3 large. -/
abbrev Code := Fin 4

end Sys2Proof
end

