-- ==== Sys2Proof/Config.lean ====
section
/-! DEFINITION. What the part fixes: the sizes and limits its rules name. The spec leaves no value of an
instruction's result open, so there is no free value here; what it leaves to the surroundings (the order of rows,
damage to memory words, the answers of heads) arrives as operands of the commands. -/

namespace Sys2Proof.Config

/-- The top of the position range, 2^48 - 1 (R20). -/
def maxPosition : Nat := 281474976710655

/-- Records the page queue holds (R35). -/
def pagePlaces : Nat := 8

/-- Places for reports of every kind but OVERFLOW (R137). -/
def ordinaryPlaces : Nat := 31

/-- Entries the reply queue holds (R149). -/
def replyPlaces : Nat := 32

/-- Slots of image memory (R52). -/
def imageSlots : Nat := 1024

/-- Consecutive mismatches of one row that fault its port (R83). -/
def transferLimit : Nat := 16

/-- Top of the 16-bit counts that stop at their top (R22, R71, R137). -/
def top16 : Nat := 65535

/-- Top of the corrected count (R70). -/
def top32 : Nat := 4294967295

/-- Lines of a stripe (R55). -/
def stripeLines : Nat := 64

/-- What an image memory byte that nothing has written reads as. DESIGN CHOICE, unsafe: the spec gives image
memory no contents after power-up (log entry 3). -/
def unlistedByte : Byte := 0

end Sys2Proof.Config
end

