-- ==== Sys2Proof/Syntax.lean ====
section
/-! DEFINITION. The commands of the SP-416, one constructor per row of spec/opcode_table.json, and the operands
they carry. -/

namespace Sys2Proof

/-- What the check bits of an image memory word show when it is read, other than "correct" (R70, R71). -/
inductive Damage
  | oneWrongBit
  | uncorrectable
  deriving DecidableEq, Repr

/-- Damage that an image memory word has come to since the last command. -/
structure Upset where
  slot : Fin 1024
  place : Fin 64
  word : Fin 128
  damage : Damage
  deriving DecidableEq, Repr

/-- What the surroundings contribute to a command inside which rows act: the order in which several rows are taken
(the rows named first, in this order, then the others in ascending order), the words of image memory damaged since
the last command, and how many words each load begun in this command has read when the command ends (R104). -/
structure Outside where
  order : List RowId
  upsets : List Upset
  fetched : Nat
  deriving DecidableEq, Repr

/-- What the surroundings contribute to the end of an assembly: whether the query that joined the port's waiting last
began to wait at this same moment (R126), and the words that have gone wrong. -/
structure AssemblyMoment where
  query : Bool
  upsets : List Upset
  deriving DecidableEq, Repr

/-- The row letter of a head: A holds the even-numbered nozzles, B the odd-numbered ones (R2). -/
inductive Letter
  | A
  | B
  deriving DecidableEq, Repr

/-- The brief status with which a head answers a load, a probe or a reset (R128). The tag echo is the row letter
and the line tag. -/
structure BriefStatus where
  ready : Bool
  fault : Bool
  warning : Bool
  temperature : Fin 128
  parityEcho : Bool
  letter : Letter
  tag : Byte
  deriving DecidableEq, Repr

/-- A head's answer to a query (R133). Its temperature may be any byte: the spec gives a range for that of a brief
status alone (log entry 38). -/
structure QueryReply where
  ready : Bool
  fault : Bool
  temperature : Byte
  deriving DecidableEq, Repr

/-- An answer of either kind on a status lane. -/
inductive HeadAnswer
  | brief (st : BriefStatus)
  | query (ans : QueryReply)
  deriving DecidableEq, Repr

/-- The two kinds of frame the part receives (R145). -/
inductive FrameKind
  | request
  | data
  deriving DecidableEq, Repr

/-- A command: one whole and indivisible step of the part. A request carries its parameter block as received. -/
inductive Instr
  /-- Reset ends with these levels on ENC A, ENC B and TRIGGER. -/
  | powerOnReset (encA encB trigger : Bool)
  /-- The new levels of ENC A and ENC B. -/
  | encoderChange (a b : Bool) (env : Outside)
  /-- The assembly allowance ends for row A, row B or both rows of a port at this moment. -/
  | assemblyEnd (port : PortId) (rowA rowB : Bool) (env : AssemblyMoment)
  | linkGrant (port : PortId)
  | loadCompletion (port : PortId) (st : BriefStatus)
  | loadNoAnswer (port : PortId)
  | lateAnswer (port : PortId) (answer : HeadAnswer)
  | playCompletion (row : RowId)
  /-- The new level of TRIGGER. -/
  | triggerEdge (level : Bool) (env : Outside)
  /-- A frame judged bad: the body length of its envelope, and the bytes received after the two length bytes
  (body, check and the byte in the end position; none where the length itself is judged). -/
  | badFrame (kind : FrameKind) (length : BitVec 16) (rest : List Byte)
  | frameTimeout
  | unknownRequest (code : Byte) (params : List Byte)
  | replySent
  | trialRevert
  | setLinkRate (params : List Byte)
  | sync (params : List Byte)
  | goOnline (params : List Byte)
  | probeAnswer (port : PortId) (st : BriefStatus) (env : Outside)
  | probeTimeout (port : PortId)
  | goOffline (params : List Byte)
  | clear (params : List Byte)
  | drainComplete
  | defineHead (params : List Byte)
  | loadStitchMask (params : List Byte)
  | loadDefectList (params : List Byte)
  | setMotion (params : List Byte)
  | readPosition (params : List Byte)
  | openPage (params : List Byte)
  | abortPage (params : List Byte) (env : Outside)
  | releasePage (params : List Byte)
  | pageStatus (params : List Byte)
  | setRingSizes (params : List Byte)
  | setStarveThreshold (params : List Byte)
  /-- Of the words to read back, `fetched` of the operand are read before the command ends. -/
  | stripeChecksum (params : List Byte) (env : Outside)
  | checksumReadbackEnd (upsets : List Upset)
  | readMemoryErrors (params : List Byte)
  /-- The body of a good data frame. -/
  | stripePiece (body : List Byte)
  | loadWaveform (params : List Byte)
  | setDriveScale (params : List Byte)
  | setGuard (params : List Byte)
  | releaseGuard (params : List Byte)
  | readGuard (params : List Byte)
  | headStatus (params : List Byte)
  | queryAnswer (port : PortId) (answer : QueryReply)
  | queryNoAnswer (port : PortId)
  | clearHeadFault (params : List Byte)
  | resetAnswer (port : PortId) (st : BriefStatus)
  | resetTimeout (port : PortId)
  | fetchReport (params : List Byte)
  | startMark (kind : FrameKind)
  deriving DecidableEq, Repr

end Sys2Proof
end

