-- ==== Sys2Proof/Decode.lean ====
section
/-! DEFINITION. Reading commands from what arrives. The opcode table gives its rows no bits, so no word spells a
command (`decodeTableWord`). A whole frame on the host link does (R145, R146, R148, R150): the envelope is judged
here, and a good frame or a bad one is read as its command. -/

namespace Sys2Proof

/-- Row bits spell no command: every row of the opcode table is without them (log entry 29). -/
def decodeTableWord (_nbits _w : Nat) : Option Instr := none

namespace Frame

/-- The start mark of each kind of frame the part receives (R145). -/
def startMark : FrameKind → Byte
  | .request => 0xC1
  | .data => 0xD1

/-- The end mark (R145). -/
def endMark : Byte := 0x9E

/-- The range a frame's body length must fall in (R145). -/
def lengthInRange : FrameKind → Nat → Bool
  | .request, n => decide (1 ≤ n ∧ n ≤ 300)
  | .data, n => decide (10 ≤ n ∧ n ≤ 8202)

/-- The sum of bytes, each added as a value from 0 to 255. -/
def byteSum : List Byte → Nat
  | [] => 0
  | b :: bs => b.toNat + byteSum bs

/-- The two bytes of a 16-bit value, least significant first (R145). -/
def le16 (n : Nat) : List Byte := [BitVec.ofNat 8 n, BitVec.ofNat 8 (n / 256)]

/-- The check of a body: the value that makes the sum of R146 zero modulo 65536. -/
def checkOf (body : List Byte) : Nat :=
  (65536 - (byteSum (le16 body.length) + byteSum body) % 65536) % 65536

/-- A frame on the line (R145). -/
def build (mark : Byte) (body : List Byte) : List Byte :=
  mark :: (le16 body.length ++ body ++ le16 (checkOf body) ++ [endMark])

end Frame

/-- Why a frame is bad (R148). -/
inductive BadReason
  | length
  | endMark
  | check
  deriving DecidableEq, Repr

/-- How the bytes of one frame are judged once enough of them have arrived (R148). -/
inductive FrameVerdict
  | unfinished
  | bad (reason : BadReason)
  | good (body : List Byte)
  deriving DecidableEq, Repr

/-- The three points of R148: the length as soon as it is there, the byte in the end position, the check. -/
def Frame.judge (kind : FrameKind) (length : Nat) (rest : List Byte) : FrameVerdict :=
  if !Frame.lengthInRange kind length then .bad .length
  else if rest.length ≠ length + 3 then .unfinished
  else if rest.getLast? ≠ some Frame.endMark then .bad .endMark
  else
    let body := rest.take length
    let check := Frame.byteSum ((rest.drop length).take 1) + 256 * Frame.byteSum ((rest.drop (length + 1)).take 1)
    if (Frame.byteSum (Frame.le16 length) + Frame.byteSum body + check) % 65536 = 0 then .good body
    else .bad .check

/-- The request index of section 10.6: the command of a request code. A code not in the index is
UNKNOWN REQUEST (R150). -/
def requestOf (code : Byte) (params : List Byte) : Instr :=
  match code.toNat with
  | 0x10 => .setLinkRate params
  | 0x11 => .sync params
  | 0x20 => .goOnline params
  | 0x21 => .goOffline params
  | 0x22 => .clear params
  | 0x30 => .defineHead params
  | 0x31 => .loadStitchMask params
  | 0x32 => .loadDefectList params
  | 0x40 => .setMotion params
  | 0x41 => .readPosition params
  | 0x50 => .openPage params
  | 0x51 => .abortPage params ⟨[], [], 0⟩
  | 0x52 => .releasePage params
  | 0x53 => .pageStatus params
  | 0x60 => .setRingSizes params
  | 0x61 => .setStarveThreshold params
  | 0x62 => .stripeChecksum params ⟨[], [], 0⟩
  | 0x63 => .readMemoryErrors params
  | 0x70 => .loadWaveform params
  | 0x71 => .setDriveScale params
  | 0x72 => .setGuard params
  | 0x73 => .releaseGuard params
  | 0x74 => .readGuard params
  | 0x80 => .headStatus params
  | 0x81 => .clearHeadFault params
  | 0x90 => .fetchReport params
  | _ => .unknownRequest code params

/-- The request codes of the index of section 10.6. -/
def requestCodes : List Byte :=
  [0x10, 0x11, 0x20, 0x21, 0x22, 0x30, 0x31, 0x32, 0x40, 0x41, 0x50, 0x51, 0x52, 0x53, 0x60, 0x61, 0x62, 0x63,
    0x70, 0x71, 0x72, 0x73, 0x74, 0x80, 0x81, 0x90]

/-- The body of the frame that carries a command, and the kind of that frame; none for a command that is no good
frame. -/
def frameBody : Instr → Option (FrameKind × List Byte)
  | .setLinkRate ps => some (.request, 0x10 :: ps)
  | .sync ps => some (.request, 0x11 :: ps)
  | .goOnline ps => some (.request, 0x20 :: ps)
  | .goOffline ps => some (.request, 0x21 :: ps)
  | .clear ps => some (.request, 0x22 :: ps)
  | .defineHead ps => some (.request, 0x30 :: ps)
  | .loadStitchMask ps => some (.request, 0x31 :: ps)
  | .loadDefectList ps => some (.request, 0x32 :: ps)
  | .setMotion ps => some (.request, 0x40 :: ps)
  | .readPosition ps => some (.request, 0x41 :: ps)
  | .openPage ps => some (.request, 0x50 :: ps)
  | .abortPage ps _ => some (.request, 0x51 :: ps)
  | .releasePage ps => some (.request, 0x52 :: ps)
  | .pageStatus ps => some (.request, 0x53 :: ps)
  | .setRingSizes ps => some (.request, 0x60 :: ps)
  | .setStarveThreshold ps => some (.request, 0x61 :: ps)
  | .stripeChecksum ps _ => some (.request, 0x62 :: ps)
  | .readMemoryErrors ps => some (.request, 0x63 :: ps)
  | .loadWaveform ps => some (.request, 0x70 :: ps)
  | .setDriveScale ps => some (.request, 0x71 :: ps)
  | .setGuard ps => some (.request, 0x72 :: ps)
  | .releaseGuard ps => some (.request, 0x73 :: ps)
  | .readGuard ps => some (.request, 0x74 :: ps)
  | .headStatus ps => some (.request, 0x80 :: ps)
  | .clearHeadFault ps => some (.request, 0x81 :: ps)
  | .fetchReport ps => some (.request, 0x90 :: ps)
  | .unknownRequest code ps => some (.request, code :: ps)
  | .stripePiece body => some (.data, body)
  | .powerOnReset .. | .encoderChange .. | .assemblyEnd .. | .linkGrant .. | .loadCompletion .. | .loadNoAnswer ..
  | .lateAnswer .. | .playCompletion .. | .triggerEdge .. | .badFrame .. | .frameTimeout | .replySent | .trialRevert
  | .probeAnswer .. | .probeTimeout .. | .drainComplete | .checksumReadbackEnd .. | .queryAnswer ..
  | .queryNoAnswer .. | .resetAnswer .. | .resetTimeout .. | .startMark .. => none

/-- The bytes on the line of the frame that carries a command. -/
def encodeFrame (i : Instr) : Option (List Byte) :=
  (frameBody i).map fun p => Frame.build (Frame.startMark p.1) p.2

/-- The command of a good frame's body (R150). -/
def commandOfBody : FrameKind → List Byte → Option Instr
  | .request, [] => none
  | .request, code :: params => some (requestOf code params)
  | .data, body => some (.stripePiece body)

/-- Read a frame that arrives while the receiver is hunting: its command, or none while it has not ended or where
its first byte is no start mark (R148). -/
def decodeFrame (bytes : List Byte) : Option Instr :=
  match bytes with
  | mark :: lo :: hi :: rest =>
    let kind? : Option FrameKind := if mark = 0xC1 then some .request else if mark = 0xD1 then some .data else none
    match kind? with
    | none => none
    | some kind =>
      let length := lo.toNat + 256 * hi.toNat
      match Frame.judge kind length rest with
      | .unfinished => none
      | .bad .length => some (.badFrame kind (BitVec.ofNat 16 length) [])
      | .bad _ => some (.badFrame kind (BitVec.ofNat 16 length) rest)
      | .good body => commandOfBody kind body
  | _ => none

end Sys2Proof
end

