-- ==== Sys2Proof/Machine/State.lean ====
section
/-! DEFINITION. The state of the SP-416, block by block as the Block Overview of spec 00 lists them, and the state
right after reset (R156). -/

namespace Sys2Proof.Machine

/-! ### Control Unit -/

/-- Operating states (R155). -/
inductive OpState
  | setup
  | starting
  | online
  | draining
  deriving DecidableEq, Repr

/-- The guard record (R120). A lock is true when SET. -/
structure Guard where
  ceiling : Byte
  caps : Vector (Fin 4) 4
  mapLock : Bool
  waveformLock : Bool
  releaseLock : Bool
  deriving DecidableEq, Repr

/-- The Control Unit: operating state, motion set flag (R20), guard record. -/
structure Control where
  op : OpState
  motionSet : Bool
  guard : Guard
  deriving DecidableEq, Repr

/-! ### Geometry Tables -/

/-- The nozzle count of a head: 512 or 1024 (R1). -/
inductive HeadSize
  | n512
  | n1024
  deriving DecidableEq, Repr

/-- Clock rate of a head link: FAST 50 MHz, SLOW 12.5 MHz (R4). -/
inductive PortSpeed
  | fast
  | slow
  deriving DecidableEq, Repr

/-- A defined head definition record (R1); offsets in fine units. -/
structure Head where
  size : HeadSize
  origin : Nat
  offsetA : Nat
  offsetB : Nat
  speed : PortSpeed
  deriving DecidableEq, Repr

/-- A stitch mask: one entry word per seam column, bit p the owner on line phase p, 0 LEFT and 1 RIGHT
(R11, R154). Its width is its number of columns. -/
structure Mask where
  columns : List (BitVec 16)
  deriving DecidableEq, Repr

/-- An entry of a defect list: a dead nozzle and its optional helper (R14). -/
structure Defect where
  dead : Nat
  helper : Option Nat
  deriving DecidableEq, Repr

/-- An open defect-list changeover of a bar: the changed port, its held list, and the last held line (R16). The
start S of that line's page is kept with it, since lines of different pages are ordered by the start of their
pages. -/
structure Changeover where
  port : PortId
  held : List Defect
  page : Nat
  line : Nat
  start : Nat
  deriving DecidableEq, Repr

/-- The Geometry Tables (R1, R11, R14, R16). -/
structure Geometry where
  heads : Vector (Option Head) 16
  masks : Vector (Vector (Option Mask) 3) 4
  defects : Vector (List Defect) 16
  changeovers : Vector (Option Changeover) 4
  deriving DecidableEq, Repr

/-! ### Motion Unit -/

inductive Direction
  | none
  | forward
  | reverse
  deriving DecidableEq, Repr

inductive TriggerSense
  | rising
  | falling
  deriving DecidableEq, Repr

inductive EncoderSense
  | normal
  | swapped
  deriving DecidableEq, Repr

/-- The Motion Unit (R20). Positions are exact whole numbers. -/
structure Motion where
  phaseA : Bool
  phaseB : Bool
  triggerLevel : Bool
  pos : Nat
  hwm : Nat
  direction : Direction
  encoderErrors : Nat
  lastTrigger : Nat
  lockoutEnd : Nat
  pitch : Nat
  delay : Nat
  gap : Nat
  triggerEdge : TriggerSense
  encoderSense : EncoderSense
  deriving DecidableEq, Repr

/-! ### Page Queue -/

inductive PageState
  | opened
  | started
  | done
  deriving DecidableEq, Repr

inductive AbortMark
  | notAborted
  | abortedOpen
  | abortedStarted
  deriving DecidableEq, Repr

/-- The flags of a page (R41). -/
structure PageFlags where
  underrun : Bool
  dropped : Bool
  memory : Bool
  aborted : Bool
  deriving DecidableEq, Repr

/-- Why a line was dropped (R85). -/
inductive DropCause
  | overspeed
  | lateData
  | transfer
  | headFault
  deriving DecidableEq, Repr

/-- The lines of a page dropped for each cause (R35). -/
structure DropCounts where
  overspeed : Nat
  lateData : Nat
  transfer : Nat
  headFault : Nat
  deriving DecidableEq, Repr

/-- A page record (R35). -/
structure Page where
  id : Nat
  length : Nat
  bars : Vector Bool 4
  rows : Nat
  rowsFinished : Nat
  state : PageState
  trigger : Option Nat
  start : Option Nat
  expected : Vector Nat 4
  complete : Vector Nat 4
  flags : PageFlags
  abortMark : AbortMark
  fired : Nat
  blank : Nat
  dropped : DropCounts
  abandoned : Nat
  deriving DecidableEq, Repr

/-! ### Stripe Store -/

inductive StripeState
  | filling
  | complete
  deriving DecidableEq, Repr

/-- A stripe record (R55). -/
structure Stripe where
  page : Nat
  index : Nat
  rows : Nat
  slot : Nat
  received : Nat
  state : StripeState
  sum : Nat
  taken : Bool
  retired : Bool
  released : Bool
  deriving DecidableEq, Repr

/-- Where the next data frame of a bar must begin (R56). -/
structure StripeCursor where
  page : Nat
  index : Nat
  row : Nat
  deriving DecidableEq, Repr

/-- What the Stripe Store holds for one bar (R53, R55, R56, R66, R67). -/
structure BarStore where
  capacity : Nat
  nextSlot : Option Nat
  ring : List Stripe
  cursor : Option StripeCursor
  ahead : Nat
  threshold : Nat
  deriving DecidableEq, Repr

/-- Who read an uncorrectable word (R72). -/
inductive ReadSource
  | row (r : RowId)
  | readback
  deriving DecidableEq, Repr

/-- The fields of a full error capture record (R72). -/
structure Capture where
  source : ReadSource
  bar : BarId
  slot : Nat
  page : Nat
  stripe : Nat
  place : Nat
  word : Nat
  deriving DecidableEq, Repr

/-- Image memory: the listed bytes in rising order of address, none of them equal to what an unlisted address
reads as. -/
abbrev Memory := List Host.Cell

/-- The Stripe Store (sections 4.1 to 4.8). `damage` lists, in rising order of word address, the words whose check
bits show them wrong. -/
structure Store where
  bars : Vector BarStore 4
  starve : Bool
  slowdown : Bool
  capture : Option Capture
  corrected : Nat
  uncorrected : Nat
  memory : Memory
  damage : List (Nat × Damage)
  deriving DecidableEq, Repr

/-! ### Row Channels, Line Assembler, Drive Generators -/

/-- The line a row is working on (R76). -/
structure Cursor where
  page : Nat
  line : Nat
  deriving DecidableEq, Repr

/-- Where a load finds its line (R100). -/
inductive Source
  | data (slot : Nat)
  | blank
  deriving DecidableEq, Repr

/-- A seam of the loading row's head as the assembly context fixes it (R98): whether the head is the seam's left
head, the origin of the right head (the first seam column), the mask, and the other head's origin and governing
list. -/
structure SeamView where
  isLeft : Bool
  first : Nat
  mask : List (BitVec 16)
  otherOrigin : Nat
  other : List Defect
  deriving DecidableEq, Repr

/-- The assembly context of a load (R98). `image` holds the words read so far, eight bytes a word, from the first
word under the head on. -/
structure Context where
  row : RowId
  page : Nat
  line : Nat
  stripe : Nat
  place : Nat
  phase : Nat
  source : Source
  cap : Fin 4
  origin : Nat
  nozzles : Nat
  own : List Defect
  seams : List SeamView
  image : List Byte
  deriving DecidableEq, Repr

/-- What the Line Assembler hands to the Head Port (R99). -/
structure CodeList where
  codes : List Code
  blank : Bool
  deriving DecidableEq, Repr

/-- How far a load has come: it is assembled; its shift waits for the link; its shift is on the link or its answer
is awaited (R80, R126). -/
inductive Load
  | assembling (ctx : Context)
  | waiting (list : CodeList)
  | shifting (list : CodeList)
  deriving DecidableEq, Repr

/-- The row's view of the head latch (R76). `failed` is EMPTY with the failed mark. -/
inductive Latch
  | empty
  | failed (line : Nat)
  | loading (line : Nat) (load : Load)
  | ready (line : Nat) (list : CodeList)
  deriving DecidableEq, Repr

/-- A step of a running play, its output level worked out (R118). -/
structure PlayStep where
  output : Nat
  duration : Nat
  window : Fin 4
  deriving DecidableEq, Repr

/-- A running play: its steps, and the drop codes in the head's firing register (R114). -/
structure Play where
  steps : List PlayStep
  codes : List Code
  deriving DecidableEq, Repr

/-- The drive of a row (R76). -/
inductive Drive
  | rest
  | playing (play : Play)
  deriving DecidableEq, Repr

/-- A row channel (R76). -/
structure Row where
  cursor : Option Cursor
  fire : Option Nat
  latch : Latch
  drive : Drive
  errors : Nat
  deriving DecidableEq, Repr

/-- A step of a waveform table (R111). -/
structure WaveStep where
  level : Byte
  duration : Nat
  window : Fin 4
  deriving DecidableEq, Repr

/-- Waveform tables and drive scales, one of each per bar (R111, R117). -/
structure Drives where
  waveforms : Vector (List WaveStep) 4
  scales : Vector Nat 4
  deriving DecidableEq, Repr

/-! ### Head Ports -/

inductive PortState
  | off
  | ready
  | fault
  deriving DecidableEq, Repr

inductive FaultCause
  | none
  | headReported
  | transfer
  | noAnswer
  | notReady
  deriving DecidableEq, Repr

/-- The kinds of line header (R127). -/
inductive HeaderKind
  | load
  | probe
  | reset
  | query
  deriving DecidableEq, Repr

/-- A line header (R127). The spec gives its fields and its 32 bits, not their places among the bits (log entry
41). -/
structure LineHeader where
  kind : HeaderKind
  letter : Letter
  nozzles : Nat
  tag : Byte
  parity : Bool
  deriving DecidableEq, Repr

/-- The exchange a head link carries: its header, the codes that follow it (none but in a load) and the clock it is
sent at (R126, R127). -/
structure Exchange where
  header : LineHeader
  codes : List Code
  speed : PortSpeed
  deriving DecidableEq, Repr

/-- Who may wait for a head link (R126). -/
inductive Requester
  | shift (letter : Letter)
  | query
  deriving DecidableEq, Repr

/-- A head port: its record (R125), its link and its link arbiter (R126). -/
structure Port where
  state : PortState
  cause : FaultCause
  last : Option BriefStatus
  warm : Bool
  link : Option Exchange
  waiting : List Requester
  deriving DecidableEq, Repr

/-! ### Report Queue -/

/-- Why a trigger edge was rejected (R29, R30). -/
inductive RejectCause
  | reverse
  | lockout
  deriving DecidableEq, Repr

/-- The kind of a report with its subject (R138). -/
inductive Topic
  | pageDone (page : Nat)
  | triggerMissed
  | triggerRejected (cause : RejectCause)
  | underrun (page : Nat) (bar : BarId)
  | lineDropped (page : Nat) (row : RowId)
  | headFault (port : PortId)
  | headWarm (port : PortId)
  | starve
  | memoryError
  | driveClamped (bar : BarId)
  | linkReverted
  | overflow
  deriving DecidableEq, Repr

/-- The detail of a report (R138). -/
inductive Detail
  | none
  | page (flags : PageFlags) (mark : AbortMark)
  | position (p : Nat)
  | line (k : Nat)
  | drop (cause : DropCause) (k : Nat)
  | fault (cause : FaultCause)
  | temperature (t : Nat)
  | starve (on : Bool) (bar : Option BarId)
  | source (src : ReadSource)
  | level (n : Nat)
  deriving DecidableEq, Repr

/-- A report (R137). -/
structure Report where
  topic : Topic
  pos : Nat
  count : Nat
  detail : Detail
  deriving DecidableEq, Repr

/-- The Report Queue and the ATTENTION line (R137, R144). -/
structure Reports where
  queue : List Report
  attention : Bool
  deriving DecidableEq, Repr

/-! ### Link Controller -/

/-- Status codes of replies (R150). -/
inductive Status
  | ok
  | badFrame
  | unknownRequest
  | badParameter
  | wrongState
  | busy
  | guarded
  | queueFull
  | ringFull
  | sequence
  | stripeCheck
  | notFound
  | badConfig
  deriving DecidableEq, Repr

/-- A reply: status, echo, and the detail bytes and result fields that follow (R145). -/
structure Reply where
  status : Status
  echo : Byte
  fields : List Byte
  deriving DecidableEq, Repr

/-- An entry of the reply queue: a reply ready to send, or the place of the request in progress, with the echo its
reply will carry (R149). -/
inductive ReplyEntry
  | ready (r : Reply)
  | place (echo : Byte)
  deriving DecidableEq, Repr

/-- Link rates, code 0, 1 and 2 (R151). -/
inductive LinkRate
  | r1250
  | r2500
  | r5000
  deriving DecidableEq, Repr

/-- What a pending rate switch waits for: `own n`, until n more replies are sent, the last of them that of its
SET LINK RATE; `behind n`, until the n replies that stood behind that one are sent (R151). -/
inductive SwitchWait
  | own (n : Nat)
  | behind (n : Nat)
  deriving DecidableEq, Repr

/-- A pending rate switch (R151). -/
structure PendingSwitch where
  rate : LinkRate
  wait : SwitchWait
  deriving DecidableEq, Repr

/-- A checksum readback in progress (R74): the stripe's record as it was found, the words read so far, their sum
and the uncorrectable ones among them. -/
structure Readback where
  bar : BarId
  page : Nat
  index : Nat
  rows : Nat
  slot : Nat
  rowBytes : Nat
  wordsRead : Nat
  sum : Nat
  bad : Nat
  deriving DecidableEq, Repr

/-- The exchange a CLEAR HEAD FAULT has come to (R135). -/
inductive ClearStage
  | reset
  | probe
  deriving DecidableEq, Repr

/-- The work of the request in progress (R149). -/
inductive Work
  | goOnline (port : PortId)
  | drain (clear : Bool) (count : Nat)
  | checksum (rb : Readback)
  | headStatus (port : PortId)
  | clearFault (port : PortId) (stage : ClearStage)
  deriving DecidableEq, Repr

/-- A reply frame as it left the part. -/
structure SentFrame where
  rate : LinkRate
  bytes : List Byte
  deriving DecidableEq, Repr

/-- The Link Controller (sections 10.3 to 10.5). A receiver that is `none` is hunting. `sending` is the rate at which
the head reply was begun. `sent` is the model's record of the transmit line: the last reply frame sent. -/
structure Link where
  receiver : Option FrameKind
  rate : LinkRate
  trialOpen : Bool
  switch : Option PendingSwitch
  replies : List ReplyEntry
  sending : Option LinkRate
  busy : Option Work
  sent : Option SentFrame
  deriving DecidableEq, Repr

/-! ### The part -/

/-- The state of the part: its blocks, and the queue of commands waiting, first in first out. -/
structure State where
  pending : List Instr
  control : Control
  geometry : Geometry
  motion : Motion
  pages : List Page
  store : Store
  rows : Vector (Option Row) 32
  drives : Drives
  ports : Vector Port 16
  reports : Reports
  link : Link
  deriving DecidableEq, Repr

/-- Reasons the part stops with a fault: there are none. What the manual calls a fault is an effect on State. -/
inductive Fault
  deriving DecidableEq, Repr

/-- Reasons a command is refused by the model. -/
inductive Refusal
  /-- A row of the opcode table without a meaning; exec raises it. Safe: the model stops where the part goes on. -/
  | notModelled (mnemonic : String)
  deriving DecidableEq, Repr

/-! ### Reset -/

/-- The guard record with every field at its loosest value (R120). -/
def Guard.loosest : Guard where
  ceiling := 255
  caps := Vector.replicate 4 3
  mapLock := false
  waveformLock := false
  releaseLock := false

/-- A bar's part of the Stripe Store after power-on reset (R75). -/
def BarStore.reset : BarStore where
  capacity := 0
  nextSlot := none
  ring := []
  cursor := none
  ahead := 0
  threshold := 0

/-- A head port after power-on reset (R125). -/
def Port.reset : Port where
  state := .off
  cause := .none
  last := none
  warm := false
  link := none
  waiting := []

/-- A row channel as GO ONLINE creates it (R76). -/
def Row.fresh : Row where
  cursor := none
  fire := none
  latch := .empty
  drive := .rest
  errors := 0

/-- The state after power-on reset (R156), with image memory `memory` and its damaged words `damage`, which reset does
not write, and the levels of ENC A, ENC B and TRIGGER as reset ends (R20). -/
def State.powerOn (memory : Memory) (damage : List (Nat × Damage)) (encA encB trigger : Bool) : State where
  pending := []
  control := { op := .setup, motionSet := false, guard := Guard.loosest }
  geometry :=
    { heads := Vector.replicate 16 none
      masks := Vector.replicate 4 (Vector.replicate 3 none)
      defects := Vector.replicate 16 []
      changeovers := Vector.replicate 4 none }
  motion :=
    { phaseA := encA, phaseB := encB, triggerLevel := trigger
      pos := 0, hwm := 0, direction := .none, encoderErrors := 0, lastTrigger := 0, lockoutEnd := 0
      pitch := 65536, delay := 1, gap := 1, triggerEdge := .rising, encoderSense := .normal }
  pages := []
  store :=
    { bars := Vector.replicate 4 BarStore.reset
      starve := false, slowdown := false, capture := none, corrected := 0, uncorrected := 0
      memory := memory, damage := damage }
  rows := Vector.replicate 32 none
  drives := { waveforms := Vector.replicate 4 [], scales := Vector.replicate 4 100 }
  ports := Vector.replicate 16 Port.reset
  reports := { queue := [], attention := false }
  link :=
    { receiver := none, rate := .r1250, trialOpen := false, switch := none, replies := [], sending := none
      busy := none, sent := none }

/-- The part right after reset. DESIGN CHOICE, unsafe: image memory reads 0 with every word correct (log entries 3
and 5), and the three lines are low (log entry 4); the spec gives neither. -/
def State.reset : State := State.powerOn [] [] false false false

end Sys2Proof.Machine
end

