-- ==== Sys2Proof/Machine/Numbering.lean ====
section
/-! DEFINITION. Bars, ports and rows (spec 00, Conventions; R2), and the one way to read and write an entry of a
fixed table. -/

namespace Sys2Proof.Machine

/-- Entry `i` of a table. -/
def entry {α : Type} {n : Nat} (t : Vector α n) (i : Fin n) : α := t[i.val]

/-- The table with entry `i` replaced. -/
def put {α : Type} {n : Nat} (t : Vector α n) (i : Fin n) (x : α) : Vector α n := t.set i.val x i.isLt

/-- Port p belongs to bar p div 4. -/
def barOf (p : PortId) : BarId := ⟨p.val / 4, by omega⟩

/-- Rows 2p and 2p + 1 belong to port p. -/
def portOf (r : RowId) : PortId := ⟨r.val / 2, by omega⟩

/-- The bar of a row. -/
def rowBar (r : RowId) : BarId := barOf (portOf r)

/-- Row 2p is row A of port p, row 2p + 1 row B. -/
def letterOf (r : RowId) : Letter := if r.val % 2 = 0 then .A else .B

/-- The row channel of a port's row letter. -/
def rowOf (p : PortId) : Letter → RowId
  | .A => ⟨2 * p.val, by omega⟩
  | .B => ⟨2 * p.val + 1, by omega⟩

def allBars : List BarId := [0, 1, 2, 3]

def allPorts : List PortId := [0, 1, 2, 3, 4, 5, 6, 7, 8, 9, 10, 11, 12, 13, 14, 15]

def allRows : List RowId :=
  [0, 1, 2, 3, 4, 5, 6, 7, 8, 9, 10, 11, 12, 13, 14, 15, 16, 17, 18, 19, 20, 21, 22, 23, 24, 25, 26, 27, 28, 29, 30, 31]

/-- The four ports of a bar, in ascending order. -/
def barPorts (b : BarId) : List PortId := allPorts.filter fun p => barOf p = b

/-- The eight row numbers of a bar, in ascending order. -/
def barRows (b : BarId) : List RowId := allRows.filter fun r => rowBar r = b

/-- A list of rows with every later mention of a row left out. -/
def firstMentions : List RowId → List RowId
  | [] => []
  | r :: rs => r :: (firstMentions rs).filter fun q => q ≠ r

/-- The order in which the rows are taken within a command: those the surroundings name, then the others
(log entry 6). -/
def rowOrder (env : Outside) : List RowId := firstMentions (env.order ++ allRows)

end Sys2Proof.Machine
end

