-- ==== Sys2Proof/Machine/Bytes.lean ====
section
/-! DEFINITION. Bytes of frames: multi-byte fields least significant byte first (R145), and the fields of a parameter
block. -/

namespace Sys2Proof.Machine

/-- A value in n bytes, least significant first. -/
def leBytes : Nat → Nat → List Byte
  | 0, _ => []
  | n + 1, v => BitVec.ofNat 8 v :: leBytes n (v / 256)

/-- The value of bytes that stand least significant first. -/
def leValue : List Byte → Nat
  | [] => 0
  | b :: bs => b.toNat + 256 * leValue bs

/-- The n-byte field that begins at byte `at`; bytes the block lacks read as 0 (log entry 16). -/
def fieldAt (ps : List Byte) (pos n : Nat) : Nat := leValue ((ps.drop pos).take n)

/-- A flag in one byte. -/
def flagByte (b : Bool) : Byte := if b then 1 else 0

end Sys2Proof.Machine
end

