-- ==== Sys2Proof/Machine/Ops.lean ====
section
/-! DEFINITION. The named operations over image memory, row channels, ports, page records and the Report Queue. -/

namespace Sys2Proof.Machine

/-! ### Image memory (R52) -/

/-- The 26-bit address of a byte: 10 bits of slot, 6 of row place, 10 of byte in the place. -/
def byteAddress (slot place byte : Nat) : Nat := slot % 1024 * 65536 + place % 64 * 1024 + byte % 1024

/-- The number of a word among the 8-byte words of image memory. -/
def wordAddress (slot place word : Nat) : Nat := slot % 1024 * 8192 + place % 64 * 128 + word % 128

/-- Addresses strictly rise from `low` on, and no entry equals what an unlisted address reads as. -/
def Memory.risesFrom : Nat → Memory → Bool
  | _, [] => true
  | low, (a, v) :: m => decide (low ≤ a) && decide (v ≠ Config.unlistedByte) && Memory.risesFrom (a + 1) m

/-- The canonical form of image memory. -/
def Memory.wf (m : Memory) : Bool := Memory.risesFrom 0 m

/-- The byte at an address. -/
def Memory.read : Memory → Nat → Byte
  | [], _ => Config.unlistedByte
  | (a, v) :: m, x => if a = x then v else Memory.read m x

/-- The entries that a run of bytes makes. -/
def Memory.run : Nat → List Byte → Memory
  | _, [] => []
  | a, v :: vs => if v = Config.unlistedByte then Memory.run (a + 1) vs else (a, v) :: Memory.run (a + 1) vs

/-- Write a run of consecutive bytes. -/
def Memory.writeRun (m : Memory) (a : Nat) (vs : List Byte) : Memory :=
  m.filter (fun c => c.1 < a) ++ Memory.run a vs ++ m.filter (fun c => a + vs.length ≤ c.1)

/-- The n bytes from an address on. -/
def Memory.readRun (m : Memory) (a : Nat) : Nat → List Byte
  | 0 => []
  | n + 1 => Memory.read m a :: Memory.readRun m (a + 1) n

/-- What the check bits of a word show; a word not listed is correct. -/
def damageOf : List (Nat × Damage) → Nat → Option Damage
  | [], _ => none
  | (w, d) :: ds, x => if w = x then some d else damageOf ds x

/-- Record the damage of a word. -/
def setDamage (ds : List (Nat × Damage)) (w : Nat) (d : Damage) : List (Nat × Damage) :=
  ds.filter (fun c => c.1 < w) ++ (w, d) :: ds.filter (fun c => w < c.1)

/-- A run of words written has fresh check bits (R52). -/
def clearDamage (ds : List (Nat × Damage)) (w n : Nat) : List (Nat × Damage) :=
  ds.filter fun c => c.1 < w || w + n ≤ c.1

/-- Words damaged since the last command. -/
def applyUpsets : List Upset → List (Nat × Damage) → List (Nat × Damage)
  | [], ds => ds
  | u :: us, ds => applyUpsets us (setDamage ds (wordAddress u.slot u.place u.word) u.damage)

/-- The part with the words damaged that a command's surroundings name. -/
def upset (us : List Upset) (s : State) : State :=
  { s with store := { s.store with damage := applyUpsets us s.store.damage } }

/-- The bytes of a row filled with 0 to a whole number of words (R52). -/
def padToWord (vs : List Byte) : List Byte := vs ++ List.replicate ((8 - vs.length % 8) % 8) 0

/-- Write one image row into a row place (R52). -/
def writeRow (slot place : Nat) (vs : List Byte) (st : Store) : Store :=
  { st with
    memory := Memory.writeRun st.memory (byteAddress slot place 0) (padToWord vs)
    damage := clearDamage st.damage (wordAddress slot place 0) ((vs.length + 7) / 8) }

/-! ### Row channels and ports -/

/-- The row channel r, if it exists. -/
def State.row (s : State) (r : RowId) : Option Row := entry s.rows r

/-- Change row channel r, if it exists. -/
def State.updateRow (s : State) (r : RowId) (f : Row → Row) : State :=
  { s with rows := put s.rows r ((entry s.rows r).map f) }

/-- The record of port p. -/
def State.port (s : State) (p : PortId) : Port := entry s.ports p

/-- Change the record of port p. -/
def State.updatePort (s : State) (p : PortId) (f : Port → Port) : State :=
  { s with ports := put s.ports p (f (entry s.ports p)) }

/-- The Stripe Store's part for bar b. -/
def State.bar (s : State) (b : BarId) : BarStore := entry s.store.bars b

/-- Change the Stripe Store's part for bar b. -/
def State.updateBar (s : State) (b : BarId) (f : BarStore → BarStore) : State :=
  { s with store := { s.store with bars := put s.store.bars b (f (entry s.store.bars b)) } }

/-! ### Page records -/

/-- The record with a page id. -/
def findPage (pages : List Page) (id : Nat) : Option Page := pages.find? fun p => p.id = id

/-- Change the record with a page id. -/
def changePage (id : Nat) (f : Page → Page) (pages : List Page) : List Page :=
  pages.map fun p => if p.id = id then f p else p

/-- Change the record with a page id. -/
def State.updatePage (s : State) (id : Nat) (f : Page → Page) : State :=
  { s with pages := changePage id f s.pages }

/-! ### The Report Queue (section 9) -/

/-- Add 1 to a count that stops at its top. -/
def bump (top n : Nat) : Nat := if n < top then n + 1 else n

/-- The ordinary reports held (R137). -/
def ordinaryHeld (q : List Report) : Nat := (q.filter fun r => r.topic ≠ .overflow).length

/-- Fold an event into the report of its kind and subject (R139). -/
def foldReport (t : Topic) (d : Detail) (q : List Report) : List Report :=
  q.map fun r => if r.topic = t then { r with count := bump Config.top16 r.count, detail := d } else r

/-- The queue after an event: folded, added at the tail, or counted in the OVERFLOW report (R139, R140). -/
def postTo (pos : Nat) (t : Topic) (d : Detail) (q : List Report) : List Report :=
  if q.any (fun r => r.topic = t) then foldReport t d q
  else if ordinaryHeld q < Config.ordinaryPlaces then q ++ [{ topic := t, pos := pos, count := 1, detail := d }]
  else if q.any (fun r => r.topic = .overflow) then foldReport .overflow .none q
  else q ++ [{ topic := .overflow, pos := pos, count := 1, detail := .none }]

/-- A block posts an event (R139, R140); ATTENTION follows the number of reports held (R144). -/
def post (t : Topic) (d : Detail) (s : State) : State :=
  { s with
    reports :=
      { queue := postTo s.motion.pos t d s.reports.queue
        attention := !(postTo s.motion.pos t d s.reports.queue).isEmpty } }

/-- Empty the report queue (R160). -/
def emptyReports (s : State) : State := { s with reports := { queue := [], attention := false } }

end Sys2Proof.Machine
end

