-- ==== Sys2Proof/Machine/Flags.lean ====
section
/-! DEFINITION. The codes of every enumerated value and flag carried in a frame (R138, R150, R154), and the layouts
of the records that replies carry. -/

namespace Sys2Proof.Machine

/-- Status codes (R150). -/
def Status.code : Status → Byte
  | .ok => 0x00
  | .badFrame => 0x01
  | .unknownRequest => 0x02
  | .badParameter => 0x03
  | .wrongState => 0x04
  | .busy => 0x05
  | .guarded => 0x06
  | .queueFull => 0x07
  | .ringFull => 0x08
  | .sequence => 0x09
  | .stripeCheck => 0x0A
  | .notFound => 0x0B
  | .badConfig => 0x0C

/-- Rate codes (R151). -/
def LinkRate.code : LinkRate → Byte
  | .r1250 => 0
  | .r2500 => 1
  | .r5000 => 2

/-- The rate of a code; none above 2 (R151). -/
def rateOfCode : Nat → Option LinkRate
  | 0 => some .r1250
  | 1 => some .r2500
  | 2 => some .r5000
  | _ => none

/-- BAD FRAME reasons (R148). -/
def reasonCode : BadReason → Byte
  | .length => 1
  | .endMark => 2
  | .check => 3

def Direction.code : Direction → Byte
  | .none => 0
  | .forward => 1
  | .reverse => 2

def TriggerSense.code : TriggerSense → Byte
  | .rising => 0
  | .falling => 1

def EncoderSense.code : EncoderSense → Byte
  | .normal => 0
  | .swapped => 1

def PageState.code : PageState → Byte
  | .opened => 0
  | .started => 1
  | .done => 2

def AbortMark.code : AbortMark → Byte
  | .notAborted => 0
  | .abortedOpen => 1
  | .abortedStarted => 2

def DropCause.code : DropCause → Byte
  | .overspeed => 1
  | .lateData => 2
  | .transfer => 3
  | .headFault => 4

def PortState.code : PortState → Byte
  | .off => 0
  | .ready => 1
  | .fault => 2

def FaultCause.code : FaultCause → Byte
  | .none => 0
  | .headReported => 1
  | .transfer => 2
  | .noAnswer => 3
  | .notReady => 4

/-- A bit of a byte. -/
def bit (n : Nat) (b : Bool) : Nat := if b then 2 ^ n else 0

/-- Page flags: bit 0 UNDERRUN, bit 1 DROPPED, bit 2 MEMORY, bit 3 ABORTED (R154). -/
def PageFlags.byte (f : PageFlags) : Byte :=
  BitVec.ofNat 8 (bit 0 f.underrun + bit 1 f.dropped + bit 2 f.memory + bit 3 f.aborted)

/-- A bar set: bit b set for bar b (R37). -/
def barSetByte (bars : Vector Bool 4) : Byte :=
  BitVec.ofNat 8 (bit 0 (entry bars 0) + bit 1 (entry bars 1) + bit 2 (entry bars 2) + bit 3 (entry bars 3))

/-- The four bytes of a brief status in a reply (R154). Bits 5 and 6 of the first, which R154 leaves out, are 0 (log
entry 40). -/
def briefBytes (st : BriefStatus) : List Byte :=
  [BitVec.ofNat 8 (bit 0 st.ready + bit 1 st.fault + bit 2 st.warning + bit 3 st.parityEcho +
      bit 4 (decide (st.letter = .B)) + bit 7 true),
    BitVec.ofNat 8 st.temperature.val, st.tag, 0]

/-- A last brief status in a reply: four bytes of 0 when empty (R154). -/
def lastStatusBytes : Option BriefStatus → List Byte
  | none => [0, 0, 0, 0]
  | some st => briefBytes st

/-- The source of a memory error: 0 to 31 for ROW n, FFh for READBACK (R73). -/
def ReadSource.byte : ReadSource → Byte
  | .row r => BitVec.ofNat 8 r.val
  | .readback => 0xFF

/-- Report kinds (R138). -/
def Topic.kind : Topic → Byte
  | .pageDone _ => 0x01
  | .triggerMissed => 0x02
  | .triggerRejected _ => 0x03
  | .underrun _ _ => 0x04
  | .lineDropped _ _ => 0x05
  | .headFault _ => 0x06
  | .headWarm _ => 0x07
  | .starve => 0x08
  | .memoryError => 0x09
  | .driveClamped _ => 0x0A
  | .linkReverted => 0x0B
  | .overflow => 0x0C

/-- The subject's page id in a FETCH REPORT reply; 0 for kinds without one (R143). -/
def Topic.page : Topic → Nat
  | .pageDone p => p
  | .underrun p _ => p
  | .lineDropped p _ => p
  | .triggerMissed | .triggerRejected _ | .headFault _ | .headWarm _ | .starve | .memoryError | .driveClamped _
  | .linkReverted | .overflow => 0

/-- The subject's bar, row or port in a FETCH REPORT reply (R143). -/
def Topic.unit : Topic → Nat
  | .underrun _ b => b.val
  | .lineDropped _ r => r.val
  | .headFault p => p.val
  | .headWarm p => p.val
  | .driveClamped b => b.val
  | .pageDone _ | .triggerMissed | .triggerRejected _ | .starve | .memoryError | .linkReverted | .overflow => 0

/-- The subject's cause in a FETCH REPORT reply (R143). -/
def Topic.causeByte : Topic → Byte
  | .triggerRejected .reverse => 1
  | .triggerRejected .lockout => 2
  | .pageDone _ | .triggerMissed | .underrun _ _ | .lineDropped _ _ | .headFault _ | .headWarm _ | .starve
  | .memoryError | .driveClamped _ | .linkReverted | .overflow => 0

/-- The used detail bytes of a report (R143). -/
def Detail.used : Detail → List Byte
  | .none => []
  | .page f m => [f.byte, m.code]
  | .position p => leBytes 6 p
  | .line k => leBytes 2 k
  | .drop c k => c.code :: leBytes 2 k
  | .fault c => [c.code]
  | .temperature t => [BitVec.ofNat 8 t]
  | .starve on bar => [flagByte on, match bar with | Option.none => 0xFF | some b => BitVec.ofNat 8 b.val]
  | .source src => [src.byte]
  | .level n => leBytes 2 n

/-- The eight detail bytes, unused ones 0 (R143). -/
def Detail.bytes (d : Detail) : List Byte := (d.used ++ List.replicate 8 0).take 8

/-- The guard record in the layout SET GUARD takes (R121, R124). -/
def Guard.bytes (g : Guard) : List Byte :=
  [g.ceiling, BitVec.ofNat 8 (entry g.caps 0).val, BitVec.ofNat 8 (entry g.caps 1).val,
    BitVec.ofNat 8 (entry g.caps 2).val, BitVec.ofNat 8 (entry g.caps 3).val,
    flagByte g.mapLock, flagByte g.waveformLock, flagByte g.releaseLock]

/-- The five motion settings in the layout SET MOTION takes (R27, R154). -/
def Motion.settingsBytes (m : Motion) : List Byte :=
  leBytes 4 m.pitch ++ leBytes 4 m.delay ++ leBytes 4 m.gap ++ [m.triggerEdge.code, m.encoderSense.code]

/-- The fields of a page record in a reply (R48); `place` is its place in the queue. A bar's two stripe counts stand
together (log entry 33). T and S that are absent are 0 also for a page that was aborted while OPEN and is DONE (log
entry 34). -/
def Page.bytes (place : Nat) (p : Page) : List Byte :=
  leBytes 2 p.id ++ [BitVec.ofNat 8 place, p.state.code] ++ leBytes 2 p.length ++
    [barSetByte p.bars, BitVec.ofNat 8 p.rows, BitVec.ofNat 8 p.rowsFinished] ++
    leBytes 6 (p.trigger.getD 0) ++ leBytes 7 (p.start.getD 0) ++
    (allBars.map fun b => leBytes 2 (entry p.expected b) ++ leBytes 2 (entry p.complete b)).flatten ++
    [p.flags.byte, p.abortMark.code] ++ leBytes 4 p.fired ++ leBytes 4 p.blank ++
    leBytes 4 p.dropped.overspeed ++ leBytes 4 p.dropped.lateData ++ leBytes 4 p.dropped.transfer ++
    leBytes 4 p.dropped.headFault ++ leBytes 4 p.abandoned

end Sys2Proof.Machine
end

