-- ==== Sys2Proof/Machine/Operands.lean ====
section
/-! DEFINITION. Reading parameter blocks and frame bodies into records (R12, R15, R112, R145, R154). -/

namespace Sys2Proof.Machine

/-- The head definition a DEFINE HEAD block carries (R154), its values as they stand in the block. -/
structure HeadParams where
  port : Nat
  use : Nat
  nozzles : Nat
  origin : Nat
  offsetA : Nat
  offsetB : Nat
  speed : Nat
  deriving DecidableEq, Repr

def readHeadParams (ps : List Byte) : HeadParams where
  port := fieldAt ps 0 1
  use := fieldAt ps 1 1
  nozzles := fieldAt ps 2 2
  origin := fieldAt ps 4 2
  offsetA := fieldAt ps 6 6
  offsetB := fieldAt ps 12 6
  speed := fieldAt ps 18 1

/-- The columns of a stitch mask block: for seam column i, byte 2i holds phases 0 to 7 and byte 2i + 1 phases
8 to 15 (R154). -/
def readMaskColumns : Nat → List Byte → List (BitVec 16)
  | 0, _ => []
  | n + 1, ps => BitVec.ofNat 16 (fieldAt ps 0 2) :: readMaskColumns n (ps.drop 2)

/-- The entries of a defect list block, and none unless the bytes hold exactly the number counted (R15 check 1,
R154). -/
def readDefects : Nat → List Byte → Option (List Defect)
  | 0, [] => some []
  | 0, _ :: _ => none
  | n + 1, d0 :: d1 :: mark :: ps =>
    if mark = 0 then
      (readDefects n ps).map fun ds => { dead := leValue [d0, d1], helper := none } :: ds
    else
      match ps with
      | h0 :: h1 :: ps' =>
        (readDefects n ps').map fun ds => { dead := leValue [d0, d1], helper := some (leValue [h0, h1]) } :: ds
      | _ => none
  | _ + 1, _ => none

/-- A waveform step as its four bytes give it: level, duration, window (R112). -/
structure StepParams where
  level : Byte
  duration : Nat
  window : Nat
  deriving DecidableEq, Repr

def readSteps : Nat → List Byte → List StepParams
  | 0, _ => []
  | n + 1, ps =>
    { level := BitVec.ofNat 8 (fieldAt ps 0 1), duration := fieldAt ps 1 2, window := fieldAt ps 3 1 } ::
      readSteps n (ps.drop 4)

/-- The piece header of a data frame (R145) and its row data. -/
structure Piece where
  bar : Nat
  final : Bool
  page : Nat
  index : Nat
  firstRow : Nat
  rowCount : Nat
  sum : Nat
  length : Nat
  data : List Byte
  deriving DecidableEq, Repr

def readPiece (body : List Byte) : Piece where
  bar := fieldAt body 0 1
  final := decide (fieldAt body 1 1 % 2 = 1)
  page := fieldAt body 2 2
  index := fieldAt body 4 2
  firstRow := fieldAt body 6 1
  rowCount := fieldAt body 7 1
  sum := fieldAt body 8 2
  length := body.length
  data := body.drop 10

/-- A number as a bar, if it is one. -/
def toBar (n : Nat) : Option BarId := if h : n < 4 then some ⟨n, h⟩ else none

/-- A number as a port, if it is one. -/
def toPort (n : Nat) : Option PortId := if h : n < 16 then some ⟨n, h⟩ else none

/-- The bar set of a byte (R37). -/
def readBarSet (n : Nat) : Vector Bool 4 :=
  #v[decide (n % 2 = 1), decide (n / 2 % 2 = 1), decide (n / 4 % 2 = 1), decide (n / 8 % 2 = 1)]

end Sys2Proof.Machine
end

