-- ==== Sys2Proof/Machine/Geometry.lean ====
section
/-! DEFINITION. Section 1: the quantities derived from the head definitions, the layout checks of GO ONLINE that read
them, and the governing defect lists of a line. -/

namespace Sys2Proof.Machine

/-- The nozzle count M of a head (R1). -/
def HeadSize.count : HeadSize → Nat
  | .n512 => 512
  | .n1024 => 1024

/-- The defined heads of a bar with their ports, in ascending port order (R5). -/
def definedHeads (g : Geometry) (b : BarId) : List (PortId × Head) :=
  (barPorts b).filterMap fun p => (entry g.heads p).map fun h => (p, h)

/-- A bar has heads (R5). -/
def hasHeads (g : Geometry) (b : BarId) : Bool := !(definedHeads g b).isEmpty

/-- The bar width W_b (R6). -/
def barWidth (g : Geometry) (b : BarId) : Nat :=
  match (definedHeads g b).getLast? with
  | some (_, h) => h.origin + h.size.count
  | none => 0

/-- The row bytes of a bar (R6). -/
def rowBytes (g : Geometry) (b : BarId) : Nat := (barWidth g b + 3) / 4

/-- The overlap of a consecutive pair; it may be negative (R6). -/
def overlap (left right : Head) : Int := (left.origin : Int) + left.size.count - right.origin

/-- A consecutive pair of a bar's defined heads, with its index (R6, R7). -/
structure HeadPair where
  index : Nat
  leftPort : PortId
  left : Head
  rightPort : PortId
  right : Head
  deriving DecidableEq, Repr

/-- The consecutive pairs of a list of heads, numbered from i. -/
def pairsFrom : Nat → List (PortId × Head) → List HeadPair
  | i, x :: y :: rest =>
    { index := i, leftPort := x.1, left := x.2, rightPort := y.1, right := y.2 } :: pairsFrom (i + 1) (y :: rest)
  | _, [_] => []
  | _, [] => []

/-- The consecutive pairs of a bar (R6). -/
def headPairs (g : Geometry) (b : BarId) : List HeadPair := pairsFrom 0 (definedHeads g b)

/-- The seams of a bar: the pairs that overlap (R7). -/
def seams (g : Geometry) (b : BarId) : List HeadPair :=
  (headPairs g b).filter fun pr => 0 < overlap pr.left pr.right

/-- The mask in the slot (bar, seam index) (R11). -/
def maskAt (g : Geometry) (b : BarId) (i : Nat) : Option Mask :=
  if h : i < 3 then entry (entry g.masks b) ⟨i, h⟩ else none

/-- Item 2 of R157 for one bar. -/
def layoutOk (g : Geometry) (b : BarId) : Bool :=
  match definedHeads g b with
  | [] => true
  | (_, h) :: _ =>
    decide (h.origin = 0) &&
      (headPairs g b).all (fun pr => decide (pr.left.origin < pr.right.origin) &&
        decide (0 ≤ overlap pr.left pr.right) && decide (overlap pr.left pr.right ≤ 64)) &&
      decide (barWidth g b ≤ 4096)

/-- Item 3 of R157 for one bar: each seam finds a mask of its width in its slot (R13). -/
def masksOk (g : Geometry) (b : BarId) : Bool :=
  (seams g b).all fun pr =>
    match maskAt g b pr.index with
    | some m => decide ((m.columns.length : Int) = overlap pr.left pr.right)
    | none => false

/-- The nozzle count that the port's line headers give (R127). -/
def headNozzles (g : Geometry) (p : PortId) : Nat :=
  match entry g.heads p with
  | some h => h.size.count
  | none => 0

/-- The clock of the port's head link (R4). -/
def headSpeed (g : Geometry) (p : PortId) : PortSpeed :=
  match entry g.heads p with
  | some h => h.speed
  | none => .fast

/-- The offset of a row in fine units (R3). -/
def rowOffset (g : Geometry) (r : RowId) : Nat :=
  match entry g.heads (portOf r), letterOf r with
  | some h, .A => h.offsetA
  | some h, .B => h.offsetB
  | none, _ => 0

/-- The order of a bar's lines (R16): by the order in which their pages were started, which is that of their starts
S (R39), then by line index. The line (s, k) is at or before the line (s', k'). -/
def atOrBefore (s k s' k' : Nat) : Bool := decide (s < s') || (decide (s = s') && decide (k ≤ k'))

/-- The list of port p that governs line k of the page with start `start` (R17). -/
def governingList (g : Geometry) (p : PortId) (start k : Nat) : List Defect :=
  match entry g.changeovers (barOf p) with
  | some co => if co.port = p && atOrBefore start k co.start co.line then co.held else entry g.defects p
  | none => entry g.defects p

/-- A nozzle is dead in a list (R14). -/
def isDead (ds : List Defect) (j : Nat) : Bool := ds.any fun d => d.dead = j

end Sys2Proof.Machine
end

