-- ==== Sys2Proof/Machine/PageQueue.lean ====
section
/-! DEFINITION. Section 3: looking up page records and keeping their counts. -/

namespace Sys2Proof.Machine

/-- What a fire decision hands to the Page Queue (R85, R86). -/
inductive LineOutcome
  | fired (list : CodeList)
  | dropped (cause : DropCause)
  deriving DecidableEq, Repr

/-- The records behind the one with a page id. -/
def pagesBehind (pages : List Page) (id : Nat) : List Page := (pages.dropWhile fun p => p.id ≠ id).drop 1

/-- The next page behind page `id` that is STARTED and names the bar (R92). -/
def nextStarted (pages : List Page) (id : Nat) (b : BarId) : Option Page :=
  (pagesBehind pages id).find? fun p => p.state = .started && entry p.bars b

/-- The oldest OPEN record (R39). -/
def oldestOpen (pages : List Page) : Option Page := pages.find? fun p => p.state = .opened

/-- The start S of a page; 0 where it has none. -/
def pageStart (pages : List Page) (id : Nat) : Nat :=
  match findPage pages id with
  | some p => p.start.getD 0
  | none => 0

/-- Stripes expected of a page of N lines (R35). -/
def stripesExpected (n : Nat) : Nat := (n + 63) / 64

/-- Rows R of stripe s of a page of N lines (R55). -/
def stripeRows (n s : Nat) : Nat := min 64 (n - 64 * s)

/-- Count a drop under its cause (R40). -/
def DropCounts.add (d : DropCounts) : DropCause → DropCounts
  | .overspeed => { d with overspeed := d.overspeed + 1 }
  | .lateData => { d with lateData := d.lateData + 1 }
  | .transfer => { d with transfer := d.transfer + 1 }
  | .headFault => { d with headFault := d.headFault + 1 }

/-- Lines dropped for any cause. -/
def DropCounts.total (d : DropCounts) : Nat := d.overspeed + d.lateData + d.transfer + d.headFault

/-- Count the outcome of a fire decision (R40). -/
def Page.count (p : Page) : LineOutcome → Page
  | .fired list => { p with fired := p.fired + 1, blank := if list.blank then p.blank + 1 else p.blank }
  | .dropped cause =>
    { p with dropped := p.dropped.add cause, flags := { p.flags with dropped := true } }

/-- The page ends by ABORT PAGE or teardown (R44, R45): every undecided line is abandoned. -/
def Page.abort (p : Page) : Page :=
  { p with
    state := .done
    flags := { p.flags with aborted := true }
    abortMark := if p.state = .opened then .abortedOpen else .abortedStarted
    abandoned := p.length * p.rows - p.fired - p.dropped.total
    rowsFinished := p.rows }

/-- The row channels of a bar set as they stand (R35). -/
def rowsInBars (s : State) (bars : Vector Bool 4) : Nat :=
  (allRows.filter fun r => (s.row r).isSome && entry bars (rowBar r)).length

/-- The places of a queue of records, with the records. -/
def placed : Nat → List Page → List (Nat × Page)
  | _, [] => []
  | n, p :: ps => (n, p) :: placed (n + 1) ps

end Sys2Proof.Machine
end

