-- ==== Sys2Proof/Machine/StripeStore.lean ====
section
/-! DEFINITION. Section 4: rings, stripe cursors, the starve condition, retirement, and reading image memory under
the check bits. -/

namespace Sys2Proof.Machine

/-! ### Rings (R53) -/

/-- The first slot of a bar's run: the capacities of the bars before it. -/
def firstSlot (bars : Vector BarStore 4) (b : BarId) : Nat :=
  ((allBars.filter fun x => x < b).map fun x => (entry bars x).capacity).sum

/-- The next slot of an emptied ring: the first of its run, or none for capacity 0. -/
def emptyNextSlot (bars : Vector BarStore 4) (b : BarId) : Option Nat :=
  if (entry bars b).capacity = 0 then none else some (firstSlot bars b)

/-- The slot after a slot in a bar's run, the first after the last (R59). -/
def slotAfter (first capacity slot : Nat) : Nat := if slot + 1 < first + capacity then slot + 1 else first

/-- The free slots of a ring (R53). -/
def BarStore.free (bs : BarStore) : Nat := bs.capacity - bs.ring.length

/-- The FILLING record of a ring, if it holds one (R55). -/
def BarStore.filling (bs : BarStore) : Option Stripe := bs.ring.find? fun st => st.state = .filling

/-- A record answers to a page id and a stripe index: its released mark is clear (R55). -/
def Stripe.is (st : Stripe) (page index : Nat) : Bool :=
  decide (st.page = page) && decide (st.index = index) && !st.released

/-! ### The stripe cursor (R56) -/

/-- A page that the cursor of a bar may stand on: not DONE, naming the bar, stripes lacking. -/
def lacksStripes (b : BarId) (p : Page) : Bool :=
  decide (p.state ≠ .done) && entry p.bars b && decide (entry p.complete b < entry p.expected b)

/-- The value R56 gives the cursor of a bar. -/
def cursorOf (pages : List Page) (bs : BarStore) (b : BarId) : Option StripeCursor :=
  match pages.find? (lacksStripes b) with
  | none => none
  | some p =>
    let index := entry p.complete b
    some { page := p.id, index := index,
           row := match bs.ring.find? fun st => decide (st.state = .filling) && st.is p.id index with
             | some st => st.received
             | none => 0 }

/-- Set one bar's cursor anew (R56). -/
def refreshCursor (b : BarId) (s : State) : State :=
  s.updateBar b fun bs => { bs with cursor := cursorOf s.pages bs b }

/-- Set every bar's cursor anew (R56). -/
def refreshCursors (s : State) : State :=
  refreshCursor 3 (refreshCursor 2 (refreshCursor 1 (refreshCursor 0 s)))

/-! ### The starve condition (R68, R69) -/

/-- A bar is at risk (R68). -/
def atRisk (pages : List Page) (bs : BarStore) (b : BarId) : Bool :=
  decide (0 < bs.threshold) && decide (bs.ahead < bs.threshold) &&
    pages.any fun p => decide (p.state = .started) && entry p.bars b && decide (entry p.complete b < entry p.expected b)

/-- The lowest-numbered bar at risk. -/
def lowestAtRisk (s : State) : Option BarId := allBars.find? fun b => atRisk s.pages (s.bar b) b

/-- The starve condition holds while the part is ONLINE and some bar is at risk (R68). -/
def starveHolds (s : State) : Bool := decide (s.control.op = .online) && (lowestAtRisk s).isSome

/-- Enter the starve condition (R69). -/
def enterStarve (s : State) : State :=
  post .starve (.starve true (lowestAtRisk s)) { s with store := { s.store with starve := true, slowdown := true } }

/-- Leave the starve condition (R69). -/
def leaveStarve (s : State) : State :=
  post .starve (.starve false none) { s with store := { s.store with starve := false, slowdown := false } }

/-- Evaluate the starve condition at one of the events of R68. -/
def evaluateStarve (s : State) : State :=
  if starveHolds s then (if s.store.starve then s else enterStarve s)
  else (if s.store.starve then leaveStarve s else s)

/-! ### Retirement (R64, R65) -/

/-- A row has finished with line e of a STARTED page: it has decided the line or left the page (R64). A row with no
cursor has left every STARTED page of its bar, since idle rows take up a page as it starts (R93). -/
def rowPassed (pages : List Page) (row : Option Row) (page : Page) (e : Nat) : Bool :=
  match row.bind (·.cursor) with
  | none => true
  | some c =>
    if c.page = page.id then decide (e < c.line) else decide (page.start.getD 0 < pageStart pages c.page)

/-- A stripe of bar b is to be marked retired (R64). Its page's rows have all left a DONE page. -/
def retirementDue (s : State) (b : BarId) (st : Stripe) : Bool :=
  match findPage s.pages st.page with
  | none => false
  | some p =>
    match p.state with
    | .opened => false
    | .done => true
    | .started =>
      decide (st.state = .complete) &&
        (barRows b).all fun r => rowPassed s.pages (s.row r) p (64 * st.index + st.rows - 1)

/-- A stripe that the ahead count holds (R66). -/
def Stripe.counted (st : Stripe) : Bool := decide (st.state = .complete) && !st.taken && !st.retired

/-- Retired records leave from the head (R65). -/
def leaveFromHead (ring : List Stripe) : List Stripe := ring.dropWhile (·.retired)

/-- The ring with a retired FILLING record withdrawn from its tail, and that record (R65). -/
def withdrawTail (ring : List Stripe) : List Stripe × Option Stripe :=
  match ring.getLast? with
  | some st => if st.state = .filling && st.retired then (ring.dropLast, some st) else (ring, none)
  | none => (ring, none)

/-- The retired marks that R64 sets now in a bar's ring. -/
def markRetired (s : State) (b : BarId) (ring : List Stripe) : List Stripe :=
  ring.map fun st => if !st.retired && retirementDue s b st then { st with retired := true } else st

/-- How many stripes that the ahead count holds are retired now. -/
def countedLost (s : State) (b : BarId) (ring : List Stripe) : Nat :=
  (ring.filter fun st => st.counted && retirementDue s b st).length

/-- Judge the retirement of a bar's stripes: set the marks, let records leave the ring, lower the ahead count
(R64, R65). Where stripes that the ahead count holds are lost, the starve condition is evaluated once, after all of
this bar's marks (log entry 35). -/
def judgeRetirement (b : BarId) (s : State) : State :=
  let ring := markRetired s b (s.bar b).ring
  let lost := countedLost s b (s.bar b).ring
  let w := withdrawTail ring
  let s' := refreshCursor b (s.updateBar b fun bs =>
    { bs with
      ring := leaveFromHead w.1
      nextSlot := match w.2 with
        | some st => some st.slot
        | none => bs.nextSlot
      ahead := bs.ahead - lost })
  if lost = 0 then s' else evaluateStarve s'

/-- Judge the retirement of the stripes of several bars, in the order given. -/
def judgeRetirements : List BarId → State → State
  | [], s => s
  | b :: bs, s => judgeRetirements bs (judgeRetirement b s)

/-- The end of a page at the Stripe Store (R42, R44, R45): its stripes retire, the cursors move on, the starve
condition is evaluated. The bars are taken in ascending order; the starve condition is evaluated after each bar that
lost stripes the ahead count held, and once more at the end (log entry 35). -/
def storePageEnd (bars : Vector Bool 4) (s : State) : State :=
  evaluateStarve (refreshCursors (judgeRetirements (allBars.filter fun b => entry bars b) s))

/-! ### Reading image memory (R70 to R72) -/

/-- What a read of image memory is for. -/
structure ReadKey where
  source : ReadSource
  bar : BarId
  slot : Nat
  page : Nat
  stripe : Nat
  deriving DecidableEq, Repr

/-- An uncorrectable word is found (R71, R72). -/
def noteUncorrectable (k : ReadKey) (place word : Nat) (s : State) : State :=
  let s1 := { s with
    store := { s.store with
      uncorrected := bump Config.top16 s.store.uncorrected
      capture := match s.store.capture with
        | some c => some c
        | none => some { source := k.source, bar := k.bar, slot := k.slot, page := k.page, stripe := k.stripe,
                         place := place, word := word } } }
  post .memoryError (.source k.source)
    (s1.updatePage k.page fun p => { p with flags := { p.flags with memory := true } })

/-- A word with one wrong bit is corrected (R70). -/
def noteCorrected (s : State) : State :=
  { s with store := { s.store with corrected := bump Config.top32 s.store.corrected } }

/-- Read one word (R70, R71): its eight bytes as the read takes them. -/
def readWord (k : ReadKey) (place word : Nat) (s : State) : List Byte × State :=
  match damageOf s.store.damage (wordAddress k.slot place word) with
  | none => (Memory.readRun s.store.memory (byteAddress k.slot place (8 * word)) 8, s)
  | some .oneWrongBit =>
    (Memory.readRun s.store.memory (byteAddress k.slot place (8 * word)) 8, noteCorrected s)
  | some .uncorrectable => (List.replicate 8 0, noteUncorrectable k place word s)

/-- Read words of one row place, in the order given. -/
def readWords (k : ReadKey) (place : Nat) : List Nat → State → List Byte × State
  | [], s => ([], s)
  | w :: ws, s =>
    ((readWord k place w s).1 ++ (readWords k place ws (readWord k place w s).2).1,
      (readWords k place ws (readWord k place w s).2).2)

/-! ### Checksum readback (R74) -/

/-- Words of a row place that hold its row-bytes bytes. -/
def rowWords (rowBytes : Nat) : Nat := (rowBytes + 7) / 8

/-- Words of a readback. -/
def Readback.total (rb : Readback) : Nat := rb.rows * rowWords rb.rowBytes

/-- Read the next word of a readback, rows and words in ascending order (log entry 36): the bytes of the row it holds
add to the sum. -/
def readbackWord (rb : Readback) (s : State) : Readback × State :=
  let place := rb.wordsRead / rowWords rb.rowBytes
  let word := rb.wordsRead % rowWords rb.rowBytes
  let k : ReadKey := { source := .readback, bar := rb.bar, slot := rb.slot, page := rb.page, stripe := rb.index }
  let r := readWord k place word s
  ({ rb with
      wordsRead := rb.wordsRead + 1
      sum := (rb.sum + Frame.byteSum (r.1.take (rb.rowBytes - 8 * word))) % 65536
      bad := if damageOf s.store.damage (wordAddress rb.slot place word) = some .uncorrectable then rb.bad + 1
        else rb.bad },
    r.2)

/-- Read up to n further words of a readback. -/
def readbackWords : Nat → Readback → State → Readback × State
  | 0, rb, s => (rb, s)
  | n + 1, rb, s =>
    if rb.wordsRead < rb.total then readbackWords n (readbackWord rb s).1 (readbackWord rb s).2 else (rb, s)

end Sys2Proof.Machine
end

