-- ==== Sys2Proof/Machine/LineAssembler.lean ====
section
/-! DEFINITION. Section 6: how the codes of one row and one line are built from the assembly context. -/

namespace Sys2Proof.Machine

/-- The words under a head: X div 32 to (X + M - 1) div 32 (R103). They are read in ascending order (log entry 36). -/
def contextWords (origin nozzles : Nat) : List Nat :=
  List.range' (origin / 32) ((origin + nozzles - 1) / 32 + 1 - origin / 32)

/-- The words a context has yet to read. -/
def Context.unread (ctx : Context) : List Nat := (contextWords ctx.origin ctx.nozzles).drop (ctx.image.length / 8)

/-- The drop code of column c in the image row as the context read it (R103, R147): byte c div 4, bit pair
c mod 4. -/
def Context.pixel (ctx : Context) (c : Nat) : Code :=
  ⟨(ctx.image.getD (c / 4 - 8 * (ctx.origin / 32)) 0).toNat / 4 ^ (c % 4) % 4, Nat.mod_lt _ (by decide)⟩

/-- Column c is a seam column of a seam (R7). -/
def SeamView.holds (sv : SeamView) (c : Nat) : Bool :=
  decide (sv.first ≤ c) && decide (c < sv.first + sv.mask.length)

/-- The mask names the left head at seam column number i and a line phase (R11). -/
def maskSaysLeft (mask : List (BitVec 16)) (i phase : Nat) : Bool := !(mask.getD i 0).getLsbD phase

/-- The mask owner of seam column c is the loading row's head (R105). -/
def Context.maskOwns (ctx : Context) (sv : SeamView) (c : Nat) : Bool :=
  maskSaysLeft sv.mask (c - sv.first) ctx.phase == sv.isLeft

/-- The loading row's head owns column c on the context's line (R105, R106): the mask owner keeps a seam column
unless its nozzle there is dead and the other head's is not. -/
def Context.owns (ctx : Context) (c : Nat) : Bool :=
  match ctx.seams.find? fun sv => sv.holds c with
  | none => true
  | some sv =>
    let mine := isDead ctx.own (c - ctx.origin)
    let theirs := isDead sv.other (c - sv.otherOrigin)
    if ctx.maskOwns sv c then !(mine && !theirs) else theirs && !mine

/-- The base code of nozzle j (R107). -/
def Context.base (ctx : Context) (j : Nat) : Nat :=
  if ctx.owns (ctx.origin + j) && !isDead ctx.own j then (ctx.pixel (ctx.origin + j)).val else 0

/-- The donated code of nozzle j (R108). -/
def Context.donated (ctx : Context) (j : Nat) : Nat :=
  match ctx.own.find? fun d => d.helper = some j with
  | none => 0
  | some d => if ctx.owns (ctx.origin + d.dead) then (ctx.pixel (ctx.origin + d.dead)).val else 0

/-- The code of nozzle j (R109). -/
def Context.code (ctx : Context) (j : Nat) : Code :=
  if isDead ctx.own j then 0
  else ⟨min ctx.cap.val (ctx.base j + ctx.donated j), Nat.lt_of_le_of_lt (Nat.min_le_left _ _) ctx.cap.isLt⟩

/-- The nozzle numbers of a row in ascending order (R2, R99). -/
def rowNozzles (r : RowId) (nozzles : Nat) : List Nat :=
  (List.range (nozzles / 2)).map fun i =>
    match letterOf r with
    | .A => 2 * i
    | .B => 2 * i + 1

/-- The code list of a context (R99, R102). -/
def Context.codeList (ctx : Context) : CodeList :=
  match ctx.source with
  | .blank => { codes := (rowNozzles ctx.row ctx.nozzles).map fun _ => 0, blank := true }
  | .data _ => { codes := (rowNozzles ctx.row ctx.nozzles).map ctx.code, blank := false }

/-- The 1 bits of a drop code. -/
def codeBits (c : Code) : Nat := c.val % 2 + c.val / 2

/-- The parity of a code list: 1 when the count of 1 bits is odd (R127). -/
def codesParity (codes : List Code) : Bool := decide ((codes.map codeBits).sum % 2 = 1)

end Sys2Proof.Machine
end

