-- ==== Sys2Proof/Machine/Drive.lean ====
section
/-! DEFINITION. Section 7: the play length of a waveform, the output levels of a play, and what a play drives and
connects at a moment of it. -/

namespace Sys2Proof.Machine

/-- The play length of a table in units of 20 ns (R111). -/
def playLength (steps : List WaveStep) : Nat := (steps.map (·.duration)).sum

/-- The scaled level of a step (R118 step 1). -/
def scaledLevel (level : Byte) (scale : Nat) : Nat := (level.toNat * scale + 50) / 100

/-- The output level of a step (R118). -/
def outputLevel (level : Byte) (scale : Nat) (ceiling : Byte) : Nat :=
  min (min (scaledLevel level scale) 255) ceiling.toNat

/-- A step is clamped by the ceiling (R118 step 3). -/
def clampedByCeiling (level : Byte) (scale : Nat) (ceiling : Byte) : Bool :=
  decide (ceiling.toNat < min (scaledLevel level scale) 255)

/-- The steps of a play, their levels worked out at play start (R114, R118). -/
def playSteps (steps : List WaveStep) (scale : Nat) (ceiling : Byte) : List PlayStep :=
  steps.map fun st => { output := outputLevel st.level scale ceiling, duration := st.duration, window := st.window }

/-- The level requested: the greatest scaled level among the clamped steps; none when no step is clamped (R119). -/
def levelRequested (steps : List WaveStep) (scale : Nat) (ceiling : Byte) : Option Nat :=
  ((steps.filter fun st => clampedByCeiling st.level scale ceiling).map fun st => scaledLevel st.level scale).max?

/-- The step that a play is in at t units of 20 ns after its start; none once the last has run (R114, R116). -/
def stepAt : List PlayStep → Nat → Option PlayStep
  | [], _ => none
  | st :: sts, t => if t < st.duration then some st else stepAt sts (t - st.duration)

/-- The level on the drive output t units after play start; 0 after the last step (R114, R116). -/
def outputAt (steps : List PlayStep) (t : Nat) : Nat :=
  match stepAt steps t with
  | some st => st.output
  | none => 0

/-- The level on a row's drive output: 0 at REST (R116), the play's level t units after its start otherwise. -/
def driveOutput (d : Drive) (t : Nat) : Nat :=
  match d with
  | .rest => 0
  | .playing play => outputAt play.steps t

/-- A step's window connects a nozzle of a drop code (R115). -/
def windowConnects (window : Fin 4) (code : Code) : Bool := decide (window ≠ 0) && decide (window ≤ code)

/-- Nozzle number i of the row (counted within the row) is connected t units after play start (R115). -/
def connectedAt (play : Play) (t i : Nat) : Bool :=
  match stepAt play.steps t with
  | some st => windowConnects st.window (play.codes.getD i 0)
  | none => false

/-- Nozzle number i of a row is connected to the drive output: none is at REST (R116), nor after the last step of a
play. -/
def driveConnects (d : Drive) (t i : Nat) : Bool :=
  match d with
  | .rest => false
  | .playing play => connectedAt play t i

/-- The level on the drive output of row r, t units of 20 ns after the start of the play it may be in. A row without a
channel, as in SETUP and STARTING, drives level 0 (R116). -/
def State.driveLevel (s : State) (r : RowId) (t : Nat) : Nat :=
  match s.row r with
  | some row => driveOutput row.drive t
  | none => 0

/-- Nozzle number i of row r is connected to its drive output, t units after the start of the play it may be in. A row
without a channel connects none (R116). -/
def State.connects (s : State) (r : RowId) (t i : Nat) : Bool :=
  match s.row r with
  | some row => driveConnects row.drive t i
  | none => false

/-! ### The data lanes (R81, R127) -/

/-- What the four data lanes of a head link carry in one clock: the nth of the header's eight clocks, or two codes, the
first on lanes 0 and 1, the second on lanes 2 and 3. -/
inductive LaneClock
  | header (h : LineHeader) (n : Fin 8)
  | codes (low high : Code)
  deriving DecidableEq, Repr

/-- A code list, two codes to a clock (R127). A row's list has an even number of codes; past the end of a list of odd
length lanes 2 and 3 carry 0. -/
def codeClocks : List Code → List LaneClock
  | a :: b :: rest => .codes a b :: codeClocks rest
  | [a] => [.codes a 0]
  | [] => []

/-- What the data lanes carry, clock by clock, in an exchange that is not cut (R127): the header, then the codes in
ascending nozzle number. -/
def Exchange.lanes (ex : Exchange) : List LaneClock :=
  [0, 1, 2, 3, 4, 5, 6, 7].map (LaneClock.header ex.header) ++ codeClocks ex.codes

/-- Clocks of a load's shift: a 32-bit header and 2 bits for each of M/2 nozzles over four lanes (R81, R127). -/
def shiftClocks (size : HeadSize) : Nat := (32 + 2 * (size.count / 2)) / 4

/-- Nanoseconds of one clock of a head link (R4). -/
def clockNs : PortSpeed → Nat
  | .fast => 20
  | .slow => 80

/-- Nanoseconds of a load that waits for nothing: the assembly allowance and the shift (R81). -/
def loadNs (size : HeadSize) (speed : PortSpeed) : Nat := 2000 + shiftClocks size * clockNs speed

end Sys2Proof.Machine
end

