-- ==== Sys2Proof/Machine/RowChannel.lean ====
section
/-! DEFINITION. Section 5 and the parts of sections 6 to 8 it calls on: fire positions, load begins and cuts, play
starts, port faults, the fire decision and its hand-offs, and the movement of rows from page to page. -/

namespace Sys2Proof.Machine

/-! ### Cursors and fire positions -/

/-- The fire position of line k (R78). -/
def firePosition (start offset k pitch : Nat) : Nat := start + (offset + k * pitch + 32768) / 65536

/-- Place a row's cursor on a line and compute its fire position (R78). -/
def placeCursor (r : RowId) (page line : Nat) (s : State) : State :=
  s.updateRow r fun row =>
    { row with
      cursor := some { page := page, line := line }
      fire := some (firePosition (pageStart s.pages page) (rowOffset s.geometry r) line s.motion.pitch) }

/-- Make a row idle (R77, R92). -/
def makeIdle (r : RowId) (s : State) : State :=
  s.updateRow r fun row => { row with cursor := none, fire := none }

/-- Take up line 0 of a page, or go idle where there is none (R92, R94). -/
def takeUp (r : RowId) (next : Option Page) (s : State) : State :=
  match next with
  | some p => placeCursor r p.id 0 s
  | none => makeIdle r s

/-! ### Loads (R80, R98, R100 to R104) -/

/-- Where the line of a load is found (R100). -/
def loadSource (ring : List Stripe) (page line : Nat) : Source :=
  match ring.find? fun st => st.is page (line / 64) with
  | some st => if st.state = .complete then .data st.slot else .blank
  | none => .blank

/-- The seams of a port's head as a context fixes them for line k of the page with start `start` (R98). -/
def seamViews (g : Geometry) (p : PortId) (start k : Nat) : List SeamView :=
  (seams g (barOf p)).filterMap fun pr =>
    let mask := match maskAt g (barOf p) pr.index with
      | some m => m.columns
      | none => []
    if pr.leftPort = p then
      some { isLeft := true, first := pr.right.origin, mask := mask, otherOrigin := pr.right.origin,
             other := governingList g pr.rightPort start k }
    else if pr.rightPort = p then
      some { isLeft := false, first := pr.right.origin, mask := mask, otherOrigin := pr.left.origin,
             other := governingList g pr.leftPort start k }
    else none

/-- The assembly context of a load of the cursor's line (R98). -/
def makeContext (s : State) (r : RowId) (c : Cursor) : Context where
  row := r
  page := c.page
  line := c.line
  stripe := c.line / 64
  place := c.line % 64
  phase := c.line % 16
  source := loadSource (s.bar (rowBar r)).ring c.page c.line
  cap := entry s.control.guard.caps (rowBar r)
  origin := match entry s.geometry.heads (portOf r) with
    | some h => h.origin
    | none => 0
  nozzles := headNozzles s.geometry (portOf r)
  own := governingList s.geometry (portOf r) (pageStart s.pages c.page) c.line
  seams := seamViews s.geometry (portOf r) (pageStart s.pages c.page) c.line
  image := []

/-- A take of a stripe (R63): the first one sets the taken mark and lowers the ahead count. -/
def takeStripe (b : BarId) (page index : Nat) (s : State) : State :=
  if (s.bar b).ring.any fun st => st.is page index && st.counted then
    evaluateStarve (s.updateBar b fun bs =>
      { bs with
        ring := bs.ring.map fun st => if st.is page index && st.counted then { st with taken := true } else st
        ahead := bs.ahead - 1 })
  else s

/-- A load without data (R102): UNDERRUN flag and report. -/
def noteUnderrun (b : BarId) (page line : Nat) (s : State) : State :=
  post (.underrun page b) (.line line)
    (s.updatePage page fun p => { p with flags := { p.flags with underrun := true } })

/-- Read up to n of the words a row's context has yet to read (R103, R104). -/
def fetchWords (n : Nat) (r : RowId) (s : State) : State :=
  match (s.row r).map Row.latch with
  | some (.loading line (.assembling ctx)) =>
    match ctx.source with
    | .blank => s
    | .data slot =>
      let k : ReadKey := { source := .row r, bar := rowBar r, slot := slot, page := ctx.page, stripe := ctx.stripe }
      let read := readWords k ctx.place (ctx.unread.take n) s
      read.2.updateRow r fun row =>
        { row with latch := .loading line (.assembling { ctx with image := ctx.image ++ read.1 }) }
  | _ => s

/-- Open the assembly context of a load: the latch becomes LOADING (R80, R98). -/
def openContext (r : RowId) (c : Cursor) (s : State) : State :=
  s.updateRow r fun row => { row with latch := .loading c.line (.assembling (makeContext s r c)) }

/-- Begin a load of the line at a cursor (R80): the context, then the take or the underrun, then the words read at
once. -/
def beginLoadAt (fetched : Nat) (r : RowId) (c : Cursor) (s : State) : State :=
  match loadSource (s.bar (rowBar r)).ring c.page c.line with
  | .data _ => fetchWords fetched r (takeStripe (rowBar r) c.page (c.line / 64) (openContext r c s))
  | .blank => noteUnderrun (rowBar r) c.page c.line (openContext r c s)

/-- Begin a load of the row's line if it has one and its port is READY (R80). -/
def beginLoad (fetched : Nat) (r : RowId) (s : State) : State :=
  match (s.row r).bind (·.cursor) with
  | some c => if (s.port (portOf r)).state = .ready then beginLoadAt fetched r c s else s
  | none => s

/-- What a cut load gives back at its port: a waiting shift is withdrawn, a shift on the link is stopped
(R126, R131). -/
def releaseLink (l : Letter) (latch : Latch) (p : Port) : Port :=
  match latch with
  | .loading _ (.waiting _) => { p with waiting := p.waiting.filter fun q => q ≠ .shift l }
  | .loading _ (.shifting _) => { p with link := none }
  | .loading _ (.assembling _) => p
  | .empty => p
  | .failed _ => p
  | .ready _ _ => p

/-- Empty a row's latch, cutting the load it may be in (R84). -/
def clearLatch (r : RowId) (s : State) : State :=
  match s.row r with
  | none => s
  | some row =>
    (s.updateRow r fun row => { row with latch := .empty }).updatePort (portOf r) (releaseLink (letterOf r) row.latch)

/-! ### Port faults (R95, R129) -/

/-- A READY port enters FAULT; a port that is not READY does not take the event. -/
def faultPort (p : PortId) (cause : FaultCause) (s : State) : State :=
  if (s.port p).state = .ready then
    post (.headFault p) (.fault cause)
      (clearLatch (rowOf p .B) (clearLatch (rowOf p .A)
        (s.updatePort p fun q => { q with state := .fault, cause := cause })))
  else s

/-- The port takes a brief status: it becomes the last one, and its warning sets or clears the warm flag
(R128, R130). -/
def takeBrief (p : PortId) (st : BriefStatus) (s : State) : State :=
  let s1 := s.updatePort p fun q => { q with last := some st, warm := st.warning }
  if st.warning && !(s.port p).warm then post (.headWarm p) (.temperature st.temperature.val) s1 else s1

/-! ### Plays (R86, R114, R119) -/

/-- The Drive Generator starts a play of the bar's waveform with the fired codes. -/
def startPlay (r : RowId) (codes : List Code) (s : State) : State :=
  let table := entry s.drives.waveforms (rowBar r)
  let scale := entry s.drives.scales (rowBar r)
  let ceiling := s.control.guard.ceiling
  let s1 := s.updateRow r fun row =>
    { row with latch := .empty, drive := .playing { steps := playSteps table scale ceiling, codes := codes } }
  match levelRequested table scale ceiling with
  | some n => post (.driveClamped (rowBar r)) (.level n) s1
  | none => s1

/-! ### Changeovers (R16, R18) -/

/-- A row has a cursor at or before the last held line of a changeover. -/
def rowHolds (pages : List Page) (co : Changeover) (row : Option Row) : Bool :=
  match row.bind (·.cursor) with
  | none => false
  | some c => atOrBefore (pageStart pages c.page) c.line co.start co.line

/-- Close a bar's changeover when no row of the bar has a cursor at or before the last held line (R18). -/
def judgeChangeover (b : BarId) (s : State) : State :=
  match entry s.geometry.changeovers b with
  | none => s
  | some co =>
    if (barRows b).any fun r => rowHolds s.pages co (s.row r) then s
    else { s with geometry := { s.geometry with changeovers := put s.geometry.changeovers b none } }

/-! ### The ends of pages (R42, R50) -/

/-- Queue the PAGE DONE report of a page (R50). -/
def reportDone (id : Nat) (s : State) : State :=
  match findPage s.pages id with
  | some p => post (.pageDone id) (.page p.flags p.abortMark) s
  | none => s

/-- A page has become DONE: its report, and its end at the Stripe Store (R42). -/
def closePage (p : Page) (s : State) : State :=
  storePageEnd p.bars (reportDone p.id (s.updatePage p.id fun q => { q with state := .done }))

/-- A row finishes with a page (R42). -/
def finishPage (id : Nat) (s : State) : State :=
  let s1 := s.updatePage id fun p => { p with rowsFinished := p.rowsFinished + 1 }
  match findPage s1.pages id with
  | some p => if p.state = .started && p.rowsFinished = p.rows then closePage p s1 else s1
  | none => s1

/-! ### The fire decision (R85 to R88) -/

/-- The outcome of a fire decision (R85). An EMPTY latch without the failed mark on a port that is not FAULT, which
R77 rules out, has none (log entry 19). -/
def judgeLine (portFault : Bool) (row : Row) : Option LineOutcome :=
  if portFault then some (.dropped .headFault)
  else
    match row.drive with
    | .playing _ => some (.dropped .overspeed)
    | .rest =>
      match row.latch with
      | .ready _ list => some (.fired list)
      | .loading _ _ => some (.dropped .lateData)
      | .failed _ => some (.dropped .transfer)
      | .empty => none

/-- Carry an outcome out at the row (R86, R87). -/
def carryOut (r : RowId) (c : Cursor) (o : LineOutcome) (s : State) : State :=
  match o with
  | .fired list => startPlay r list.codes s
  | .dropped cause => post (.lineDropped c.page r) (.drop cause c.line) (clearLatch r s)

/-- Move the cursor on after a decision, hand over the finish of a page, and begin the next load (R88 step 2, R91,
R92). -/
def moveOn (fetched : Nat) (r : RowId) (c : Cursor) (s : State) : State :=
  match findPage s.pages c.page with
  | none => makeIdle r s
  | some p =>
    if c.line + 1 < p.length then beginLoad fetched r (placeCursor r c.page (c.line + 1) s)
    else beginLoad fetched r (finishPage c.page (takeUp r (nextStarted s.pages c.page (rowBar r)) s))

/-- Hand an outcome on (R88): count it, move on, judge retirement, judge the changeover. -/
def handOn (fetched : Nat) (r : RowId) (c : Cursor) (o : LineOutcome) (s : State) : State :=
  judgeChangeover (rowBar r) (judgeRetirement (rowBar r)
    (moveOn fetched r c (s.updatePage c.page fun p => p.count o)))

/-- The fire decision of a row for its cursor's line (R85). -/
def fireDecision (fetched : Nat) (r : RowId) (s : State) : State :=
  match s.row r with
  | none => s
  | some row =>
    match row.cursor with
    | none => s
    | some c =>
      match judgeLine (decide ((s.port (portOf r)).state = .fault)) row with
      | none => s
      | some o => handOn fetched r c o (carryOut r c o s)

/-- A fire-position arrival at H: the row decides if its fire position is H (R25). -/
def arrive (fetched H : Nat) (r : RowId) (s : State) : State :=
  if (s.row r).bind (·.fire) = some H then fireDecision fetched r s else s

/-- Arrivals at H for rows in order. -/
def arriveAll (fetched H : Nat) : List RowId → State → State
  | [], s => s
  | r :: rs, s => arriveAll fetched H rs (arrive fetched H r s)

/-! ### Page start (R39, R93) -/

/-- An idle row of a started page's bars takes up its line 0 (R93). -/
def takeUpStart (fetched : Nat) (p : Page) (r : RowId) (s : State) : State :=
  match s.row r with
  | none => s
  | some row =>
    if row.cursor = none ∧ entry p.bars (rowBar r) = true then beginLoad fetched r (placeCursor r p.id 0 s) else s

/-- The idle rows take up a started page, in order. -/
def takeUpStarts (fetched : Nat) (p : Page) : List RowId → State → State
  | [], s => s
  | r :: rs, s => takeUpStarts fetched p rs (takeUpStart fetched p r s)

/-- Start a page at trigger T with start S (R39): the record, the rows, then the starve condition (log entry 7). -/
def startPage (env : Outside) (p : Page) (T S : Nat) (s : State) : State :=
  evaluateStarve (takeUpStarts env.fetched p (rowOrder env)
    (s.updatePage p.id fun q => { q with state := .started, trigger := some T, start := some S }))

/-! ### Leaving a page (R94) -/

/-- A row leaves an aborted page at once (R94). -/
def leavePage (fetched id : Nat) (r : RowId) (s : State) : State :=
  match (s.row r).bind (·.cursor) with
  | none => s
  | some c =>
    if c.page = id then
      beginLoad fetched r (takeUp r (nextStarted s.pages id (rowBar r)) (clearLatch r s))
    else s

/-- The rows leave an aborted page, in order. -/
def leavePages (fetched id : Nat) : List RowId → State → State
  | [], s => s
  | r :: rs, s => leavePages fetched id rs (leavePage fetched id r s)

/-! ### The leading line of a bar (R16) -/

/-- The later of two lines, given as page id, line index and the page's start. -/
def laterLine (x y : Nat × Nat × Nat) : Nat × Nat × Nat := if atOrBefore x.2.2 x.2.1 y.2.2 y.2.1 then y else x

/-- The greatest of the cursors of a bar's rows (R16). -/
def leadingLine (s : State) (b : BarId) : Option (Nat × Nat × Nat) :=
  match (barRows b).filterMap fun r => ((s.row r).bind (·.cursor)).map fun c =>
      (c.page, c.line, pageStart s.pages c.page) with
  | [] => none
  | x :: xs => some (xs.foldl laterLine x)

end Sys2Proof.Machine
end

