-- ==== Sys2Proof/Machine/HostLink.lean ====
section
/-! DEFINITION. Section 10: taking frames, the reply queue, the request in progress, and the rate switch. -/

namespace Sys2Proof.Machine

/-! ### The reply queue and the transmitter (R149, R151) -/

/-- The body of a reply (R145). -/
def Reply.body (r : Reply) : List Byte := r.status.code :: r.echo :: r.fields

/-- The reply frame on the line (R145, R146). -/
def Reply.frame (r : Reply) : List Byte := Frame.build 0xE1 r.body

/-- The transmitter begins the head entry when it is a ready reply and nothing is being sent (R149). -/
def beginSending (l : Link) : Link :=
  match l.sending, l.replies with
  | none, .ready _ :: _ => { l with sending := some l.rate }
  | _, _ => l

/-- Change the Link Controller. -/
def State.updateLink (s : State) (f : Link → Link) : State := { s with link := f s.link }

/-- Add a ready reply at the tail. -/
def addReply (r : Reply) (s : State) : State :=
  s.updateLink fun l => beginSending { l with replies := l.replies ++ [.ready r] }

/-- Fill the place of the request in progress with its reply (R149). -/
def fillPlace (st : Status) (fields : List Byte) : List ReplyEntry → List ReplyEntry
  | [] => []
  | .place echo :: es => .ready { status := st, echo := echo, fields := fields } :: es
  | .ready r :: es => .ready r :: fillPlace st fields es

/-- The work of the request in progress ends: its reply fills its place (R149). -/
def finishWork (st : Status) (fields : List Byte) (s : State) : State :=
  s.updateLink fun l => beginSending { l with replies := fillPlace st fields l.replies, busy := none }

/-- The link moves to a new rate: the receiver hunts, the trial opens (R151). -/
def makeSwitch (rate : LinkRate) (l : Link) : Link :=
  { l with rate := rate, receiver := none, trialOpen := true, switch := none }

/-- A reply has been sent: a pending switch comes nearer, or is made (R151). `l` is the link with the reply
removed. -/
def advanceSwitch (l : Link) : Link :=
  match l.switch with
  | none => l
  | some { rate := rate, wait := .own n } =>
    if 1 < n then { l with switch := some { rate := rate, wait := .own (n - 1) } }
    else if l.replies.isEmpty then makeSwitch rate l
    else { l with switch := some { rate := rate, wait := .behind l.replies.length } }
  | some { rate := rate, wait := .behind n } =>
    if 1 < n then { l with switch := some { rate := rate, wait := .behind (n - 1) } } else makeSwitch rate l

/-! ### Frames (R148 to R152) -/

/-- What a request's judgement ends in: a reply at once, or work that lasts (R149). -/
inductive Answer
  | done (st : Status) (fields : List Byte)
  | working (w : Work)
  deriving DecidableEq, Repr

/-- BAD PARAMETER with its two detail bytes (R150). -/
def badParameter (check place : Nat) : Answer := .done .badParameter [BitVec.ofNat 8 check, BitVec.ofNat 8 place]

/-- The receiver cannot be inside a frame of the other kind when a frame of this kind ends. -/
def canReceive (l : Link) (kind : FrameKind) : Bool := l.receiver = none || l.receiver = some kind

/-- A bad frame draws one BAD FRAME reply, if the queue has room (R148, R149). The receiver hunts again. -/
def rejectFrame (reason : BadReason) (echo : Byte) (s : State) : State :=
  let s1 := s.updateLink fun l => { l with receiver := none }
  if s.link.replies.length < Config.replyPlaces then
    addReply { status := .badFrame, echo := echo, fields := [reasonCode reason] } s1
  else s1

/-- A good frame with room for its reply: BUSY behind a request in progress; otherwise it becomes the request in
progress and is judged (R149). -/
def admitFrame (echo : Byte) (judge : State → State × Answer) (s : State) : State :=
  if s.link.busy.isSome then addReply { status := .busy, echo := echo, fields := [] } s
  else
    let r := judge (s.updateLink fun l => { l with replies := l.replies ++ [.place echo] })
    match r.2 with
    | .done st fields => finishWork st fields r.1
    | .working w => r.1.updateLink fun l => { l with busy := some w }

/-- A good frame completes (R148, R149, R152): the receiver hunts, an open trial closes, and the frame is admitted
unless the reply queue is full. -/
def completeFrame (echo : Byte) (judge : State → State × Answer) (s : State) : State :=
  let s1 := s.updateLink fun l => { l with receiver := none, trialOpen := false }
  if s.link.replies.length < Config.replyPlaces then admitFrame echo judge s1 else s1

/-- A request frame with this code and parameter block completes. The block of a body over 300 bytes makes the frame
bad at its length (R145, R148; log entry 11). -/
def takeRequest (code : Byte) (params : List Byte) (judge : State → State × Answer) (s : State) : State :=
  if canReceive s.link .request = false then s
  else if Frame.lengthInRange .request (params.length + 1) then completeFrame code judge s
  else rejectFrame .length 0 s

/-- A data frame with this body completes. -/
def takeData (body : List Byte) (judge : State → State × Answer) (s : State) : State :=
  if canReceive s.link .data = false then s
  else if Frame.lengthInRange .data body.length then completeFrame 0xFF judge s
  else rejectFrame .length 0xFF s

/-- A judgement that changes nothing. -/
def reply (st : Status) (fields : List Byte) (s : State) : State × Answer := (s, .done st fields)

/-- A refusal with BAD PARAMETER. -/
def refuse (check place : Nat) (s : State) : State × Answer := (s, badParameter check place)

end Sys2Proof.Machine
end

