-- ==== Sys2Proof/Machine/ControlCommands.lean ====
section
/-! DEFINITION. The commands of the Control Unit (section 11): POWER_ON_RESET, GO_ONLINE, GO_OFFLINE, CLEAR,
DRAIN_COMPLETE; and probing (R132). -/

namespace Sys2Proof.Machine

/-- POWER_ON_RESET (R156): every block at its power-on values; image memory is not written. The commands still to
arrive are not the part's and stay. -/
def execPowerOnReset (encA encB trigger : Bool) (s : State) : Host.Outcome State Fault Refusal :=
  .next { State.powerOn s.store.memory s.store.damage encA encB trigger with pending := s.pending }

/-! ### GO ONLINE (R157, R158) -/

/-- The first of items 1 to 6 that fails, with the second detail byte (R157). -/
def configFailure (s : State) : Option (Nat × Nat) :=
  let g := s.geometry
  if allPorts.all fun p => (entry g.heads p).isNone then some (1, 255)
  else
    match allBars.find? fun b => !layoutOk g b with
    | some b => some (2, b.val)
    | none =>
      match allBars.find? fun b => !masksOk g b with
      | some b => some (3, b.val)
      | none =>
        match allBars.find? fun b => hasHeads g b && (entry s.drives.waveforms b).isEmpty with
        | some b => some (4, b.val)
        | none =>
          match allBars.find? fun b => hasHeads g b && decide ((s.bar b).capacity < 2) with
          | some b => some (5, b.val)
          | none => if s.control.motionSet then none else some (6, 255)

/-- The defined ports from a port number on, in ascending order. -/
def definedFrom (g : Geometry) (n : Nat) : List PortId :=
  allPorts.filter fun p => decide (n ≤ p.val) && (entry g.heads p).isSome

/-- The exchange of a header alone: a probe, a reset or a query (R126, R127). -/
def headerOnly (g : Geometry) (p : PortId) (kind : HeaderKind) (l : Letter) : Exchange where
  header := { kind := kind, letter := l, nozzles := headNozzles g p, tag := 0, parity := false }
  codes := []
  speed := headSpeed g p

/-- Send a probe (R132). -/
def sendProbe (p : PortId) (s : State) : State :=
  s.updatePort p fun q => { q with link := some (headerOnly s.geometry p .probe .A) }

/-- Change the operating state. -/
def State.withOp (s : State) (op : OpState) : State := { s with control := { s.control with op := op } }

/-- GO ONLINE's judgement (R155, R157): state, block, items 1 to 6, then the first probe. -/
def judgeGoOnline (ps : List Byte) (s : State) : State × Answer :=
  if s.control.op ≠ .setup then reply .wrongState [] s
  else if ps ≠ [] then refuse 1 0 s
  else
    match configFailure s with
    | some (item, at2) => reply .badConfig [BitVec.ofNat 8 item, BitVec.ofNat 8 at2] s
    | none =>
      match definedFrom s.geometry 0 with
      | [] => reply .badConfig [1, 255] s
      | p :: _ => (sendProbe p (s.withOp .starting), .working (.goOnline p))

/-- GO_ONLINE (R157). -/
def execGoOnline (params : List Byte) (s : State) : Host.Outcome State Fault Refusal :=
  .next (takeRequest 0x20 params (judgeGoOnline params) s)

/-- The row channels of every defined head, freshly created (R2, R76, R158). -/
def createdRows (g : Geometry) : Vector (Option Row) 32 :=
  Vector.ofFn fun r => if (entry g.heads (portOf r)).isSome then some Row.fresh else none

/-- The Motion Unit as GO ONLINE success sets it (R20, R158). -/
def Motion.zeroed (m : Motion) : Motion :=
  { m with pos := 0, hwm := 0, direction := .none, encoderErrors := 0, lastTrigger := 0, lockoutEnd := 0 }

/-- The bars that have heads, one bit each (R158). -/
def barsWithHeads (g : Geometry) : Byte :=
  BitVec.ofNat 8 (bit 0 (hasHeads g 0) + bit 1 (hasHeads g 1) + bit 2 (hasHeads g 2) + bit 3 (hasHeads g 3))

/-- GO ONLINE succeeds (R158). -/
def goOnlineSuccess (s : State) : State :=
  finishWork .ok
    [BitVec.ofNat 8 (allRows.filter fun r => (entry (createdRows s.geometry) r).isSome).length,
      barsWithHeads s.geometry]
    { s with
      control := { s.control with op := .online }
      motion := s.motion.zeroed
      rows := createdRows s.geometry }

/-- GO ONLINE fails on a port's probe (R132, R157 item 7): the port is FAULT without a report, the part is in SETUP. -/
def goOnlineFailure (p : PortId) (cause : FaultCause) (s : State) : State :=
  finishWork .badConfig [7, BitVec.ofNat 8 p.val]
    ((s.updatePort p fun q => { q with state := .fault, cause := cause }).withOp .setup)

/-- A port has answered its GO ONLINE probe ready (R132): READY, and the next port is probed, or the part is
ONLINE. -/
def goOnlineNext (p : PortId) (s : State) : State :=
  let s1 := s.updatePort p fun q => { q with state := .ready, cause := .none }
  match definedFrom s.geometry (p.val + 1) with
  | [] => goOnlineSuccess s1
  | q :: _ => sendProbe q (s1.updateLink fun l => { l with busy := some (.goOnline q) })

/-! ### GO OFFLINE and CLEAR (R159, R160) -/

/-- A row wound down by the teardown (R97): no cursor, no fire position, its latch emptied; the drive plays on. -/
def Row.windDown (row : Row) : Row := { row with cursor := none, fire := none, latch := .empty }

/-- The link of a port whose rows' loads are all cut: shifts stopped or withdrawn (R97, R126, R131). A query keeps the
link or its place. -/
def Port.withoutLoads (p : Port) : Port :=
  { p with
    link := match p.link with
      | some ex => if ex.header.kind = .load then none else some ex
      | none => none
    waiting := p.waiting.filter fun q => q = .query }

/-- A bar's ring at the teardown (R75). -/
def tornDownBar (bars : Vector BarStore 4) (b : BarId) : BarStore :=
  { entry bars b with nextSlot := emptyNextSlot bars b, ring := [], cursor := none, ahead := 0 }

/-- The records that are not DONE (R51). -/
def notDone (pages : List Page) : Nat := (pages.filter fun p => p.state ≠ .done).length

/-- The teardown (R159 steps 1 to 5). -/
def teardown (s : State) : State :=
  let s1 := if s.store.starve then leaveStarve s else s
  { s1 with
    pages := []
    rows := s1.rows.map fun r => r.map Row.windDown
    ports := s1.ports.map Port.withoutLoads
    geometry := { s1.geometry with changeovers := Vector.replicate 4 none }
    store := { s1.store with bars := Vector.ofFn fun b => tornDownBar s1.store.bars b } }

/-- Take the part from ONLINE into DRAINING (R159). -/
def beginDraining (clear : Bool) (s : State) : State × Answer :=
  (teardown (s.withOp .draining), .working (.drain clear (notDone s.pages)))

/-- GO OFFLINE's judgement (R155, R159). -/
def judgeGoOffline (ps : List Byte) (s : State) : State × Answer :=
  if s.control.op ≠ .online then reply .wrongState [] s
  else if ps ≠ [] then refuse 1 0 s
  else beginDraining false s

/-- GO_OFFLINE (R159). -/
def execGoOffline (params : List Byte) (s : State) : Host.Outcome State Fault Refusal :=
  .next (takeRequest 0x21 params (judgeGoOffline params) s)

/-- What CLEAR empties: the report queue, the capture record and both counts (R159, R160). -/
def clearRecords (s : State) : State :=
  emptyReports { s with store := { s.store with capture := none, corrected := 0, uncorrected := 0 } }

/-- CLEAR's judgement (R155, R159, R160). It is never judged in STARTING or DRAINING. -/
def judgeClear (ps : List Byte) (s : State) : State × Answer :=
  if s.control.op ≠ .setup ∧ s.control.op ≠ .online then reply .wrongState [] s
  else if ps ≠ [] then refuse 1 0 s
  else if s.control.op = .online then beginDraining true s
  else reply .ok [0] (clearRecords s)

/-- CLEAR (R159, R160). -/
def execClear (params : List Byte) (s : State) : Host.Outcome State Fault Refusal :=
  .next (takeRequest 0x22 params (judgeClear params) s)

/-- A row channel whose drive is at REST, or no row channel. -/
def atRest (row : Option Row) : Bool :=
  match row with
  | none => true
  | some r => decide (r.drive = .rest)

/-- Every drive is at REST (R159). -/
def allAtRest (s : State) : Bool := allRows.all fun r => atRest (s.row r)

/-- The part enters SETUP from DRAINING (R97, R159): the row channels are removed, CLEAR empties its records, and the
reply is sent. -/
def enterSetup (clear : Bool) (count : Nat) (s : State) : State :=
  let s1 := if clear then clearRecords s else s
  finishWork .ok [BitVec.ofNat 8 count] { s1.withOp .setup with rows := Vector.replicate 32 none }

/-- DRAIN_COMPLETE (R159). While a drive is PLAYING, or with no drain in progress, nothing changes (log entry 2). -/
def execDrainComplete (s : State) : Host.Outcome State Fault Refusal :=
  .next
    (match s.link.busy with
    | some (.drain clear count) => if allAtRest s then enterSetup clear count s else s
    | _ => s)

end Sys2Proof.Machine
end

