-- ==== Sys2Proof/Machine/DriveCommands.lean ====
section
/-! DEFINITION. The commands of the waveforms, the drives and the guard record (section 7): LOAD_WAVEFORM,
SET_DRIVE_SCALE, SET_GUARD, RELEASE_GUARD, READ_GUARD, PLAY_COMPLETION. -/

namespace Sys2Proof.Machine

/-! ### LOAD WAVEFORM (R112, R113) -/

/-- The lowest-numbered step that fails check 4 or 5, with the check (R112). -/
def stepsFailure : Nat → List StepParams → Option (Nat × Nat)
  | _, [] => none
  | i, st :: sts =>
    if st.duration = 0 ∨ 4095 < st.duration then some (4, i)
    else if 3 < st.window then some (5, i)
    else stepsFailure (i + 1) sts

/-- The first failing check of R112, with the step number. -/
def waveformFailure (ps : List Byte) : Option (Nat × Nat) :=
  if ps.length < 2 ∨ ps.length ≠ 2 + 4 * fieldAt ps 1 1 then some (1, 0)
  else if 3 < fieldAt ps 0 1 then some (2, 0)
  else if fieldAt ps 1 1 = 0 ∨ 16 < fieldAt ps 1 1 then some (3, 0)
  else
    match stepsFailure 0 (readSteps (fieldAt ps 1 1) (ps.drop 2)) with
    | some f => some f
    | none =>
      if (readSteps (fieldAt ps 1 1) (ps.drop 2)).any fun st => st.window = 1 then none else some (6, 0)

/-- The step of a waveform table (R111). -/
def StepParams.step (st : StepParams) : WaveStep where
  level := st.level
  duration := st.duration
  window := ⟨st.window % 4, Nat.mod_lt _ (by decide)⟩

/-- Replace a bar's waveform table (R113). -/
def setWaveform (b : BarId) (steps : List WaveStep) (s : State) : State :=
  { s with drives := { s.drives with waveforms := put s.drives.waveforms b steps } }

/-- LOAD WAVEFORM's judgement (R112, R113). -/
def judgeLoadWaveform (ps : List Byte) (s : State) : State × Answer :=
  if s.control.op ≠ .setup then reply .wrongState [] s
  else if s.control.guard.waveformLock then reply .guarded [] s
  else
    match waveformFailure ps, toBar (fieldAt ps 0 1) with
    | some (check, step), _ => refuse check step s
    | none, none => refuse 2 0 s
    | none, some b =>
      let steps := (readSteps (fieldAt ps 1 1) (ps.drop 2)).map StepParams.step
      reply .ok (leBytes 1 b.val ++ leBytes 1 steps.length ++ leBytes 2 (playLength steps)) (setWaveform b steps s)

/-- LOAD_WAVEFORM (R112). -/
def execLoadWaveform (params : List Byte) (s : State) : Host.Outcome State Fault Refusal :=
  .next (takeRequest 0x70 params (judgeLoadWaveform params) s)

/-! ### SET DRIVE SCALE (R117) -/

/-- A scale limited to 50 to 150 (R117). -/
def limitScale (n : Nat) : Nat := max 50 (min n 150)

/-- SET DRIVE SCALE's judgement (R117). -/
def judgeSetDriveScale (ps : List Byte) (s : State) : State × Answer :=
  if ps.length ≠ 3 then refuse 1 0 s
  else
    match toBar (fieldAt ps 0 1) with
    | none => refuse 2 0 s
    | some b =>
      let scale := limitScale (fieldAt ps 1 2)
      reply .ok (leBytes 1 b.val ++ leBytes 2 scale)
        { s with drives := { s.drives with scales := put s.drives.scales b scale } }

/-- SET_DRIVE_SCALE (R117). -/
def execSetDriveScale (params : List Byte) (s : State) : Host.Outcome State Fault Refusal :=
  .next (takeRequest 0x71 params (judgeSetDriveScale params) s)

/-! ### SET GUARD, RELEASE GUARD, READ GUARD (R121, R123, R124) -/

/-- The cap that a block gives bar b. -/
def capField (ps : List Byte) (b : BarId) : Nat := fieldAt ps (1 + b.val) 1

/-- The first failing check of R121. -/
def guardFailure (ps : List Byte) : Option Nat :=
  if ps.length ≠ 8 then some 1
  else if allBars.any fun b => decide (capField ps b = 0) || decide (3 < capField ps b) then some 2
  else if 1 < fieldAt ps 5 1 ∨ 1 < fieldAt ps 6 1 ∨ 1 < fieldAt ps 7 1 then some 3
  else none

/-- The guard record of a block (R121). -/
def readGuardRecord (ps : List Byte) : Guard where
  ceiling := BitVec.ofNat 8 (fieldAt ps 0 1)
  caps := Vector.ofFn fun b => ⟨capField ps b % 4, Nat.mod_lt _ (by decide)⟩
  mapLock := decide (fieldAt ps 5 1 = 1)
  waveformLock := decide (fieldAt ps 6 1 = 1)
  releaseLock := decide (fieldAt ps 7 1 = 1)

/-- Some field of the record given is looser than that of the record held (R121). -/
def loosens (held given : Guard) : Bool :=
  decide (held.ceiling.toNat < given.ceiling.toNat) ||
    (allBars.any fun b => decide (entry held.caps b < entry given.caps b)) ||
    (held.mapLock && !given.mapLock) || (held.waveformLock && !given.waveformLock) ||
    (held.releaseLock && !given.releaseLock)

/-- Hold a guard record. -/
def setGuardRecord (g : Guard) (s : State) : State := { s with control := { s.control with guard := g } }

/-- SET GUARD's judgement (R121). -/
def judgeSetGuard (ps : List Byte) (s : State) : State × Answer :=
  match guardFailure ps with
  | some check => refuse check 0 s
  | none =>
    if loosens s.control.guard (readGuardRecord ps) then reply .guarded s.control.guard.bytes s
    else reply .ok (readGuardRecord ps).bytes (setGuardRecord (readGuardRecord ps) s)

/-- SET_GUARD (R121). -/
def execSetGuard (params : List Byte) (s : State) : Host.Outcome State Fault Refusal :=
  .next (takeRequest 0x72 params (judgeSetGuard params) s)

/-- The guard loosest and every waveform table empty (R123). -/
def releasedGuard (s : State) : State :=
  { setGuardRecord Guard.loosest s with drives := { s.drives with waveforms := Vector.replicate 4 [] } }

/-- RELEASE GUARD's judgement (R123). -/
def judgeReleaseGuard (ps : List Byte) (s : State) : State × Answer :=
  if s.control.guard.releaseLock then reply .guarded [] s
  else if s.control.op ≠ .setup then reply .wrongState [] s
  else if ps ≠ [] then refuse 1 0 s
  else reply .ok Guard.loosest.bytes (releasedGuard s)

/-- RELEASE_GUARD (R123). -/
def execReleaseGuard (params : List Byte) (s : State) : Host.Outcome State Fault Refusal :=
  .next (takeRequest 0x73 params (judgeReleaseGuard params) s)

/-- The fields of R124. -/
def guardFields (s : State) : List Byte :=
  s.control.guard.bytes ++
    (allBars.map fun b =>
      leBytes 1 (entry s.drives.waveforms b).length ++ leBytes 2 (playLength (entry s.drives.waveforms b)) ++
        leBytes 2 (entry s.drives.scales b)).flatten

/-- READ GUARD's judgement (R124). -/
def judgeReadGuard (ps : List Byte) (s : State) : State × Answer :=
  if ps ≠ [] then refuse 1 0 s else reply .ok (guardFields s) s

/-- READ_GUARD (R124). -/
def execReadGuard (params : List Byte) (s : State) : Host.Outcome State Fault Refusal :=
  .next (takeRequest 0x74 params (judgeReadGuard params) s)

/-! ### PLAY COMPLETION (R89, R116) -/

/-- PLAY_COMPLETION: the row's drive returns to REST. A drive at REST, or a row without a channel, has no play to
end, and nothing changes (log entry 2). -/
def execPlayCompletion (row : RowId) (s : State) : Host.Outcome State Fault Refusal :=
  .next (s.updateRow row fun r => { r with drive := .rest })

end Sys2Proof.Machine
end

