-- ==== Sys2Proof/Machine/GeometryCommands.lean ====
section
/-! DEFINITION. The commands of the Geometry Tables (section 1): DEFINE_HEAD, LOAD_STITCH_MASK, LOAD_DEFECT_LIST. -/

namespace Sys2Proof.Machine

/-! ### DEFINE HEAD (R8 to R10) -/

/-- The first failing check of R8. -/
def headFailure (ps : List Byte) : Option Nat :=
  let h := readHeadParams ps
  if (if h.use = 1 then ps.length ≠ 19 else ps.length ≠ 2) then some 1
  else if 15 < h.port then some 2
  else if 1 < h.use then some 3
  else if h.use = 0 then none
  else if h.nozzles ≠ 512 ∧ h.nozzles ≠ 1024 then some 4
  else if 4095 < h.origin then some 5
  else if 16777215 < h.offsetA / 65536 then some 6
  else if 16777215 < h.offsetB / 65536 then some 7
  else if 1 < h.speed then some 8
  else none

/-- The record that a DEFINE carries (R9). -/
def HeadParams.head (h : HeadParams) : Head where
  size := if h.nozzles = 512 then .n512 else .n1024
  origin := h.origin
  offsetA := h.offsetA
  offsetB := h.offsetB
  speed := if h.speed = 0 then .fast else .slow

/-- A DEFINE keeps the port's defect list when the port was defined with the same nozzle count (R9). -/
def keepsDefects (old : Option Head) (new : Head) : Bool :=
  match old with
  | some h => decide (h.size = new.size)
  | none => false

/-- Write a port's head definition record, defect list and port record (R9, R10). -/
def setHead (p : PortId) (h : Option Head) (keep : Bool) (s : State) : State :=
  { s with
    geometry := { s.geometry with
      heads := put s.geometry.heads p h
      defects := if keep then s.geometry.defects else put s.geometry.defects p [] }
    ports := put s.ports p { entry s.ports p with
      state := if h.isSome then .ready else .off
      cause := .none
      last := none
      warm := false } }

/-- The reply fields of DEFINE HEAD: the bar's figures as just derived (R9, R154). -/
def barFigures (g : Geometry) (b : BarId) : List Byte :=
  [BitVec.ofNat 8 b.val, BitVec.ofNat 8 (definedHeads g b).length] ++ leBytes 2 (barWidth g b) ++
    leBytes 2 (rowBytes g b)

/-- DEFINE HEAD's judgement (R8). -/
def judgeDefineHead (ps : List Byte) (s : State) : State × Answer :=
  if s.control.op ≠ .setup then reply .wrongState [] s
  else if s.control.guard.mapLock then reply .guarded [] s
  else
    match headFailure ps, toPort (readHeadParams ps).port with
    | some check, _ => refuse check 0 s
    | none, none => refuse 2 0 s
    | none, some p =>
      let h := readHeadParams ps
      let s1 :=
        if h.use = 1 then setHead p (some h.head) (keepsDefects (entry s.geometry.heads p) h.head) s
        else setHead p none false s
      reply .ok (barFigures s1.geometry (barOf p)) s1

/-- DEFINE_HEAD (R8). -/
def execDefineHead (params : List Byte) (s : State) : Host.Outcome State Fault Refusal :=
  .next (takeRequest 0x30 params (judgeDefineHead params) s)

/-! ### LOAD STITCH MASK (R12, R13) -/

/-- The first failing check of R12. -/
def maskFailure (ps : List Byte) : Option Nat :=
  if 3 < fieldAt ps 0 1 then some 1
  else if 2 < fieldAt ps 1 1 then some 2
  else if 64 < fieldAt ps 2 1 then some 3
  else if ps.length ≠ 3 + 2 * fieldAt ps 2 1 then some 4
  else none

/-- Replace the contents of a mask slot (R13). -/
def setMask (b : BarId) (i : Fin 3) (m : Option Mask) (s : State) : State :=
  { s with geometry := { s.geometry with masks := put s.geometry.masks b (put (entry s.geometry.masks b) i m) } }

/-- The mask that a block of width W gives; none for width 0 (R13). -/
def readMask (width : Nat) (ps : List Byte) : Option Mask :=
  if width = 0 then none else some { columns := readMaskColumns width (ps.drop 3) }

/-- LOAD STITCH MASK's judgement (R12, R13). -/
def judgeLoadStitchMask (ps : List Byte) (s : State) : State × Answer :=
  if s.control.op ≠ .setup then reply .wrongState [] s
  else if s.control.guard.mapLock then reply .guarded [] s
  else
    match maskFailure ps with
    | some check => refuse check 0 s
    | none =>
      let b : BarId := ⟨fieldAt ps 0 1 % 4, Nat.mod_lt _ (by decide)⟩
      let i : Fin 3 := ⟨fieldAt ps 1 1 % 3, Nat.mod_lt _ (by decide)⟩
      reply .ok (leBytes 1 (fieldAt ps 0 1) ++ leBytes 1 (fieldAt ps 1 1) ++ leBytes 1 (fieldAt ps 2 1))
        (setMask b i (readMask (fieldAt ps 2 1) ps) s)

/-- LOAD_STITCH_MASK (R12). -/
def execLoadStitchMask (params : List Byte) (s : State) : Host.Outcome State Fault Refusal :=
  .next (takeRequest 0x31 params (judgeLoadStitchMask params) s)

/-! ### LOAD DEFECT LIST (R15, R16) -/

/-- The first of checks 5 to 10 that an entry fails; `before` are the earlier entries, `all` the whole list (R15). -/
def entryFailure (M : Nat) (before all : List Defect) (d : Defect) : Option Nat :=
  if M ≤ d.dead then some 5
  else if isDead before d.dead then some 6
  else
    match d.helper with
    | none => none
    | some h =>
      if M ≤ h then some 7
      else if h = d.dead then some 8
      else if isDead all h then some 9
      else if before.any fun e => e.helper = some h then some 10
      else none

/-- The lowest-numbered entry that fails a check, with that check (R15). -/
def entriesFailure (M : Nat) (before all : List Defect) : List Defect → Option (Nat × Nat)
  | [] => none
  | d :: ds =>
    match entryFailure M before all d with
    | some check => some (check, before.length)
    | none => entriesFailure M (before ++ [d]) all ds

/-- A changeover is open for the bar of the port the block names (R15 step 2). -/
def changeoverOpen (ps : List Byte) (s : State) : Bool :=
  match ps, toPort (fieldAt ps 0 1) with
  | _ :: _, some p => (entry s.geometry.changeovers (barOf p)).isSome
  | _, _ => false

/-- Install a defect list (R16). -/
def setDefects (p : PortId) (ds : List Defect) (s : State) : State :=
  { s with geometry := { s.geometry with defects := put s.geometry.defects p ds } }

/-- Open a changeover with the port's old list held (R16). -/
def openChangeover (p : PortId) (line : Nat × Nat × Nat) (s : State) : State :=
  { s with
    geometry := { s.geometry with
      changeovers := put s.geometry.changeovers (barOf p) (some
        { port := p, held := entry s.geometry.defects p, page := line.1, line := line.2.1, start := line.2.2 }) } }

/-- An accepted LOAD DEFECT LIST (R16, R154). -/
def installDefects (p : PortId) (ds : List Defect) (s : State) : State × Answer :=
  let figures := [BitVec.ofNat 8 p.val, BitVec.ofNat 8 ds.length]
  match (if s.control.op = .online then leadingLine s (barOf p) else none) with
  | none => reply .ok (figures ++ [0, 0, 0, 0, 0]) (setDefects p ds s)
  | some line =>
    reply .ok (figures ++ [1] ++ leBytes 2 line.1 ++ leBytes 2 line.2.1) (setDefects p ds (openChangeover p line s))

/-- LOAD DEFECT LIST's judgement (R15). -/
def judgeLoadDefectList (ps : List Byte) (s : State) : State × Answer :=
  if s.control.guard.mapLock then reply .guarded [] s
  else if s.control.op = .online ∧ changeoverOpen ps s = true then reply .wrongState [] s
  else if ps.length < 2 then refuse 1 0 s
  else
    match readDefects (fieldAt ps 1 1) (ps.drop 2) with
    | none => refuse 1 0 s
    | some ds =>
      match toPort (fieldAt ps 0 1) with
      | none => refuse 2 0 s
      | some p =>
        match entry s.geometry.heads p with
        | none => refuse 3 0 s
        | some h =>
          if 32 < fieldAt ps 1 1 then refuse 4 0 s
          else
            match entriesFailure h.size.count [] ds ds with
            | some (check, place) => refuse check place s
            | none => installDefects p ds s

/-- LOAD_DEFECT_LIST (R15). -/
def execLoadDefectList (params : List Byte) (s : State) : Host.Outcome State Fault Refusal :=
  .next (takeRequest 0x32 params (judgeLoadDefectList params) s)

end Sys2Proof.Machine
end

