-- ==== Sys2Proof/Machine/LinkCommands.lean ====
section
/-! DEFINITION. The commands of the host link itself (section 10): START_MARK, BAD_FRAME, FRAME_TIMEOUT,
UNKNOWN_REQUEST, REPLY_SENT, TRIAL_REVERT, SET_LINK_RATE, SYNC. -/

namespace Sys2Proof.Machine

/-- START_MARK (R148): a hunting receiver is put inside a frame; inside a frame the byte is one of the frame's. -/
def execStartMark (kind : FrameKind) (s : State) : Host.Outcome State Fault Refusal :=
  .next (if s.link.receiver = none then s.updateLink fun l => { l with receiver := some kind } else s)

/-- The echo of a BAD FRAME reply (R148). -/
def badEcho (kind : FrameKind) (reason : BadReason) (rest : List Byte) : Byte :=
  match kind, reason with
  | .data, _ => 0xFF
  | .request, .length => 0
  | .request, .endMark => rest.headD 0
  | .request, .check => rest.headD 0

/-- BAD_FRAME (R148, R149). Bytes that make a good frame or no whole frame are no bad frame and change nothing
(log entry 2). -/
def execBadFrame (kind : FrameKind) (length : BitVec 16) (rest : List Byte) (s : State) :
    Host.Outcome State Fault Refusal :=
  .next
    (if canReceive s.link kind = false then s
    else
      match Frame.judge kind length.toNat rest with
      | .bad reason => rejectFrame reason (badEcho kind reason rest) s
      | .good _ => s
      | .unfinished => s)

/-- FRAME_TIMEOUT (R148): the frame is discarded without reply and the receiver hunts. -/
def execFrameTimeout (s : State) : Host.Outcome State Fault Refusal :=
  .next (s.updateLink fun l => { l with receiver := none })

/-- UNKNOWN_REQUEST (R150). A code of the index is no unknown request and changes nothing (log entry 2). -/
def execUnknownRequest (code : Byte) (params : List Byte) (s : State) : Host.Outcome State Fault Refusal :=
  .next (if requestCodes.contains code then s else takeRequest code params (reply .unknownRequest []) s)

/-- The link once the head reply has been sent (R149, R151). -/
def linkAfterSending (l : Link) (rate : LinkRate) (r : Reply) (rest : List ReplyEntry) : Link :=
  beginSending (advanceSwitch
    { l with replies := rest, sending := none, sent := some { rate := rate, bytes := r.frame } })

/-- REPLY_SENT (R149, R151): the head reply leaves at the rate at which it was begun; a pending rate switch comes
nearer or is made; the next ready reply is begun. With nothing being sent nothing changes (log entry 2). -/
def execReplySent (s : State) : Host.Outcome State Fault Refusal :=
  .next
    (match s.link.sending, s.link.replies with
    | some rate, .ready r :: rest => s.updateLink fun l => linkAfterSending l rate r rest
    | _, _ => s)

/-- TRIAL_REVERT (R152): rate code 0, the receiver hunts, the trial closes, LINK REVERTED is posted. -/
def execTrialRevert (s : State) : Host.Outcome State Fault Refusal :=
  .next
    (if s.link.trialOpen then
      post .linkReverted .none (s.updateLink fun l => { l with rate := .r1250, receiver := none, trialOpen := false })
    else s)

/-- SET LINK RATE's judgement (R151, R152). -/
def judgeSetLinkRate (ps : List Byte) (s : State) : State × Answer :=
  if ps.length ≠ 1 then refuse 1 0 s
  else
    match rateOfCode (fieldAt ps 0 1) with
    | none => refuse 2 0 s
    | some rate =>
      reply .ok [rate.code] (s.updateLink fun l =>
        { l with
          trialOpen := false
          switch := if rate = l.rate then none else some { rate := rate, wait := .own l.replies.length } })

/-- SET_LINK_RATE (R151). -/
def execSetLinkRate (params : List Byte) (s : State) : Host.Outcome State Fault Refusal :=
  .next (takeRequest 0x10 params (judgeSetLinkRate params) s)

/-- SYNC's judgement (R153). -/
def judgeSync (ps : List Byte) (s : State) : State × Answer :=
  if ps ≠ [] then refuse 1 0 s else reply .ok [s.link.rate.code] s

/-- SYNC (R153). -/
def execSync (params : List Byte) (s : State) : Host.Outcome State Fault Refusal :=
  .next (takeRequest 0x11 params (judgeSync params) s)

end Sys2Proof.Machine
end

