-- ==== Sys2Proof/Machine/MotionCommands.lean ====
section
/-! DEFINITION. The commands of the Motion Unit (section 2): ENCODER_CHANGE, TRIGGER_EDGE, SET_MOTION,
READ_POSITION. -/

namespace Sys2Proof.Machine

/-! ### The encoder (R21 to R25) -/

/-- The class of a change of the encoder lines (R21). -/
inductive TickClass
  | forward
  | reverse
  | illegal
  deriving DecidableEq, Repr

/-- The class of a change with sense NORMAL, from the held phase (A, B) to the new one; none where neither line
changed (R21). -/
def classNormal : Bool → Bool → Bool → Bool → Option TickClass
  | false, false, true, false => some .forward
  | true, false, true, true => some .forward
  | true, true, false, true => some .forward
  | false, true, false, false => some .forward
  | true, false, false, false => some .reverse
  | true, true, true, false => some .reverse
  | false, true, true, true => some .reverse
  | false, false, false, true => some .reverse
  | false, false, true, true => some .illegal
  | true, true, false, false => some .illegal
  | true, false, false, true => some .illegal
  | false, true, true, false => some .illegal
  | false, false, false, false => none
  | true, false, true, false => none
  | true, true, true, true => none
  | false, true, false, true => none

/-- With sense SWAPPED forward and reverse change places (R21). -/
def TickClass.swap : TickClass → TickClass
  | .forward => .reverse
  | .reverse => .forward
  | .illegal => .illegal

/-- The class of a change (R21). -/
def classify (m : Motion) (a b : Bool) : Option TickClass :=
  match m.encoderSense with
  | .normal => classNormal m.phaseA m.phaseB a b
  | .swapped => (classNormal m.phaseA m.phaseB a b).map TickClass.swap

/-- A forward tick (R23). -/
def Motion.forwardTick (m : Motion) : Motion :=
  if m.pos < m.hwm then { m with pos := m.pos + 1, direction := .forward }
  else if m.pos < Config.maxPosition then { m with pos := m.pos + 1, hwm := m.hwm + 1, direction := .forward }
  else { m with direction := .forward }

/-- A reverse tick (R24): held at 0. -/
def Motion.reverseTick (m : Motion) : Motion := { m with pos := m.pos - 1, direction := .reverse }

/-- An illegal transition (R22). -/
def Motion.illegalTransition (m : Motion) : Motion := { m with encoderErrors := bump Config.top16 m.encoderErrors }

/-- Change the Motion Unit. -/
def State.updateMotion (s : State) (f : Motion → Motion) : State := { s with motion := f s.motion }

/-- A forward tick and, at a new-ground advance, the arrivals it raises (R23, R25). -/
def forwardTick (env : Outside) (s : State) : State :=
  let s1 := s.updateMotion Motion.forwardTick
  if s.motion.hwm < s1.motion.hwm then arriveAll env.fetched s1.motion.hwm (rowOrder env) s1 else s1

/-- Pass the class of a change on, while ONLINE (R21). -/
def passOn (env : Outside) (c : Option TickClass) (s : State) : State :=
  if s.control.op = .online then
    match c with
    | some .forward => forwardTick env s
    | some .reverse => s.updateMotion Motion.reverseTick
    | some .illegal => s.updateMotion Motion.illegalTransition
    | none => s
  else s

/-- ENCODER_CHANGE (R21): the phase follows the lines in every operating state. -/
def execEncoderChange (a b : Bool) (env : Outside) (s : State) : Host.Outcome State Fault Refusal :=
  .next (passOn env (classify s.motion a b)
    ((upset env.upsets s).updateMotion fun m => { m with phaseA := a, phaseB := b }))

/-! ### The trigger (R29 to R33) -/

/-- A change of level is an edge of the configured sense (R29). -/
def isTriggerEdge (m : Motion) (level : Bool) : Bool :=
  match m.triggerEdge with
  | .rising => !m.triggerLevel && level
  | .falling => m.triggerLevel && !level

/-- The length of an accepted page's lockout: ceil(N × L / 65536) + G (R32). -/
def lockoutLength (n pitch gap : Nat) : Nat := (n * pitch + 65535) / 65536 + gap

/-- Judge a trigger edge (R29 to R32). -/
def judgeTrigger (env : Outside) (s : State) : State :=
  let m := s.motion
  if m.pos < m.hwm then post (.triggerRejected .reverse) (.position m.pos) s
  else if m.hwm < m.lockoutEnd then post (.triggerRejected .lockout) (.position m.pos) s
  else
    match oldestOpen s.pages with
    | none =>
      post .triggerMissed (.position m.hwm)
        (s.updateMotion fun m => { m with lastTrigger := m.hwm, lockoutEnd := m.hwm + m.gap })
    | some p =>
      startPage env p m.hwm (m.hwm + m.delay)
        (s.updateMotion fun m =>
          { m with lastTrigger := m.hwm, lockoutEnd := m.hwm + lockoutLength p.length m.pitch m.gap })

/-- TRIGGER_EDGE (R29): the level is followed in every operating state; an edge of the configured sense is judged
while ONLINE. -/
def execTriggerEdge (level : Bool) (env : Outside) (s : State) : Host.Outcome State Fault Refusal :=
  let s1 := (upset env.upsets s).updateMotion fun m => { m with triggerLevel := level }
  .next (if s.control.op = .online ∧ isTriggerEdge s.motion level = true then judgeTrigger env s1 else s1)

/-! ### SET MOTION (R27) -/

/-- The first failing check of R27. -/
def motionFailure (ps : List Byte) : Option Nat :=
  if ps.length ≠ 14 then some 1
  else if fieldAt ps 0 4 < 65536 then some 2
  else if fieldAt ps 4 4 = 0 ∨ 16777215 < fieldAt ps 4 4 then some 3
  else if fieldAt ps 8 4 = 0 ∨ 16777215 < fieldAt ps 8 4 then some 4
  else if 1 < fieldAt ps 12 1 then some 5
  else if 1 < fieldAt ps 13 1 then some 6
  else none

/-- The five settings of a block (R27, R154). -/
def Motion.withSettings (m : Motion) (ps : List Byte) : Motion :=
  { m with
    pitch := fieldAt ps 0 4
    delay := fieldAt ps 4 4
    gap := fieldAt ps 8 4
    triggerEdge := if fieldAt ps 12 1 = 0 then .rising else .falling
    encoderSense := if fieldAt ps 13 1 = 0 then .normal else .swapped }

/-- SET MOTION's judgement (R27). -/
def judgeSetMotion (ps : List Byte) (s : State) : State × Answer :=
  if s.control.op ≠ .setup then reply .wrongState [] s
  else
    match motionFailure ps with
    | some check => refuse check 0 s
    | none =>
      let m := s.motion.withSettings ps
      reply .ok m.settingsBytes { s with motion := m, control := { s.control with motionSet := true } }

/-- SET_MOTION (R27). -/
def execSetMotion (params : List Byte) (s : State) : Host.Outcome State Fault Refusal :=
  .next (takeRequest 0x40 params (judgeSetMotion params) s)

/-! ### READ POSITION (R34) -/

/-- The fields of R34. -/
def positionFields (s : State) : List Byte :=
  leBytes 6 s.motion.pos ++ leBytes 6 s.motion.hwm ++ [s.motion.direction.code] ++ leBytes 6 s.motion.lastTrigger ++
    leBytes 7 s.motion.lockoutEnd ++ leBytes 2 s.motion.encoderErrors ++ [flagByte s.store.starve]

/-- READ POSITION's judgement (R34). -/
def judgeReadPosition (ps : List Byte) (s : State) : State × Answer :=
  if ps ≠ [] then refuse 1 0 s else reply .ok (positionFields s) s

/-- READ_POSITION (R34). -/
def execReadPosition (params : List Byte) (s : State) : Host.Outcome State Fault Refusal :=
  .next (takeRequest 0x41 params (judgeReadPosition params) s)

end Sys2Proof.Machine
end

