-- ==== Sys2Proof/Machine/PageCommands.lean ====
section
/-! DEFINITION. The commands of the Page Queue (section 3): OPEN_PAGE, ABORT_PAGE, RELEASE_PAGE, PAGE_STATUS. -/

namespace Sys2Proof.Machine

/-! ### OPEN PAGE (R37, R38) -/

/-- The first of checks 1 to 5 that fails (R37). -/
def openFailure (ps : List Byte) (s : State) : Option Nat :=
  if ps.length ≠ 5 then some 1
  else if fieldAt ps 2 2 = 0 ∨ 32768 < fieldAt ps 2 2 then some 2
  else if fieldAt ps 4 1 = 0 ∨ 15 < fieldAt ps 4 1 then some 3
  else if allBars.any fun b => entry (readBarSet (fieldAt ps 4 1)) b && !hasHeads s.geometry b then some 4
  else if (findPage s.pages (fieldAt ps 0 2)).isSome then some 5
  else none

/-- The record an accepted OPEN PAGE adds (R38). -/
def newPage (s : State) (id n : Nat) (bars : Vector Bool 4) : Page where
  id := id
  length := n
  bars := bars
  rows := rowsInBars s bars
  rowsFinished := 0
  state := .opened
  trigger := none
  start := none
  expected := bars.map fun b => if b then stripesExpected n else 0
  complete := Vector.replicate 4 0
  flags := { underrun := false, dropped := false, memory := false, aborted := false }
  abortMark := .notAborted
  fired := 0
  blank := 0
  dropped := { overspeed := 0, lateData := 0, transfer := 0, headFault := 0 }
  abandoned := 0

/-- The reply fields of OPEN PAGE (R38, R154). -/
def openFields (pages : List Page) (p : Page) : List Byte :=
  leBytes 2 p.id ++ leBytes 1 pages.length ++
    leBytes 1 (pages.filter fun q => q.state = .opened).length ++
    (allBars.map fun b => leBytes 2 (entry p.expected b)).flatten

/-- OPEN PAGE's judgement (R37, R38). -/
def judgeOpenPage (ps : List Byte) (s : State) : State × Answer :=
  if s.control.op ≠ .online then reply .wrongState [] s
  else
    match openFailure ps s with
    | some check => refuse check 0 s
    | none =>
      if Config.pagePlaces ≤ s.pages.length then reply .queueFull [] s
      else
        let p := newPage s (fieldAt ps 0 2) (fieldAt ps 2 2) (readBarSet (fieldAt ps 4 1))
        reply .ok (openFields (s.pages ++ [p]) p) (refreshCursors { s with pages := s.pages ++ [p] })

/-- OPEN_PAGE (R37). -/
def execOpenPage (params : List Byte) (s : State) : Host.Outcome State Fault Refusal :=
  .next (takeRequest 0x50 params (judgeOpenPage params) s)

/-! ### ABORT PAGE (R43 to R45) -/

/-- The reply fields of ABORT PAGE (R154). -/
def abortFields (p : Page) : List Byte := [p.state.code, p.abortMark.code] ++ leBytes 4 p.abandoned

/-- Judge the changeovers of several bars (R18). -/
def judgeChangeovers : List BarId → State → State
  | [], s => s
  | b :: bs, s => judgeChangeovers bs (judgeChangeover b s)

/-- End a page by ABORT PAGE (R44, R45): its rows leave it, its record becomes DONE and ABORTED, its stripes retire,
and PAGE DONE is queued. No row has come to an OPEN page. -/
def abortPage (env : Outside) (p : Page) (s : State) : State :=
  let s1 := leavePages env.fetched p.id (rowOrder env) s
  let s2 := s1.updatePage p.id Page.abort
  reportDone p.id (judgeChangeovers allBars (storePageEnd p.bars s2))

/-- ABORT PAGE's judgement (R43). -/
def judgeAbortPage (ps : List Byte) (env : Outside) (s : State) : State × Answer :=
  if s.control.op ≠ .online then reply .wrongState [] s
  else if ps.length ≠ 2 then refuse 1 0 s
  else
    match findPage s.pages (fieldAt ps 0 2) with
    | none => reply .notFound [] s
    | some p =>
      if p.state = .done then reply .ok (abortFields p) s
      else reply .ok (abortFields p.abort) (abortPage env p s)

/-- ABORT_PAGE (R43). -/
def execAbortPage (params : List Byte) (env : Outside) (s : State) : Host.Outcome State Fault Refusal :=
  .next (takeRequest 0x51 params (judgeAbortPage params env) (upset env.upsets s))

/-! ### RELEASE PAGE (R47) -/

/-- The place of a record in the queue. -/
def placeOf (pages : List Page) (id : Nat) : Nat := (pages.takeWhile fun p => p.id ≠ id).length

/-- Mark a released page's stripes (R47, R65). -/
def markReleased (id : Nat) (bs : BarStore) : BarStore :=
  { bs with ring := bs.ring.map fun st => if st.page = id then { st with released := true } else st }

/-- Remove a DONE record (R47). -/
def removePage (id : Nat) (s : State) : State :=
  refreshCursors { s with
    pages := s.pages.filter fun p => p.id ≠ id
    store := { s.store with bars := s.store.bars.map (markReleased id) } }

/-- RELEASE PAGE's judgement (R47). -/
def judgeReleasePage (ps : List Byte) (s : State) : State × Answer :=
  if s.control.op ≠ .online then reply .wrongState [] s
  else if ps.length ≠ 2 then refuse 1 0 s
  else
    match findPage s.pages (fieldAt ps 0 2) with
    | none => reply .notFound [] s
    | some p =>
      if p.state ≠ .done then reply .wrongState [] s
      else
        let s1 := removePage p.id s
        reply .ok (p.bytes (placeOf s.pages p.id) ++ leBytes 1 s1.pages.length) s1

/-- RELEASE_PAGE (R47). -/
def execReleasePage (params : List Byte) (s : State) : Host.Outcome State Fault Refusal :=
  .next (takeRequest 0x52 params (judgeReleasePage params) s)

/-! ### PAGE STATUS (R48, R49) -/

/-- The queue listing (R49). -/
def queueFields (pages : List Page) : List Byte :=
  leBytes 1 pages.length ++ (pages.map fun p => leBytes 2 p.id ++ [p.state.code]).flatten

/-- PAGE STATUS's judgement (R48, R49): selector 0 RECORD, 1 QUEUE. -/
def judgePageStatus (ps : List Byte) (s : State) : State × Answer :=
  if ps = [] then refuse 1 0 s
  else if 1 < fieldAt ps 0 1 then refuse 2 0 s
  else if ps.length ≠ (if fieldAt ps 0 1 = 0 then 3 else 1) then refuse 3 0 s
  else if fieldAt ps 0 1 = 1 then reply .ok (queueFields s.pages) s
  else
    match findPage s.pages (fieldAt ps 1 2) with
    | none => reply .notFound [] s
    | some p => reply .ok (p.bytes (placeOf s.pages p.id)) s

/-- PAGE_STATUS (R48). -/
def execPageStatus (params : List Byte) (s : State) : Host.Outcome State Fault Refusal :=
  .next (takeRequest 0x53 params (judgePageStatus params) s)

end Sys2Proof.Machine
end

