-- ==== Sys2Proof/Machine/PortCommands.lean ====
section
/-! DEFINITION. The commands of the Head Ports (section 8; R99): ASSEMBLY_END, LINK_GRANT, LOAD_COMPLETION,
LOAD_NO_ANSWER, LATE_ANSWER, PROBE_ANSWER, PROBE_TIMEOUT, HEAD_STATUS, QUERY_ANSWER, QUERY_NO_ANSWER,
CLEAR_HEAD_FAULT, RESET_ANSWER, RESET_TIMEOUT. -/

namespace Sys2Proof.Machine

/-! ### The course of a load (R99, R126 to R128, R83) -/

/-- A row's shift joins those that wait for the link: at the end, but before a query that began to wait together with
it (R126). -/
def joinWaiting (query : Bool) (l : Letter) (waiting : List Requester) : List Requester :=
  if query = true ∧ waiting.getLast? = some .query then waiting.dropLast ++ [.shift l, .query]
  else waiting ++ [.shift l]

/-- The assembly allowance of a row's load ends (R99): the words not yet read are read, the code list is handed over,
and the shift asks for the link (R126). -/
def endAssembly (query : Bool) (r : RowId) (s : State) : State :=
  match (s.row r).map Row.latch with
  | some (.loading _ (.assembling ctx)) =>
    let s1 := fetchWords ctx.unread.length r s
    match (s1.row r).map Row.latch with
    | some (.loading line (.assembling ctx')) =>
      (s1.updateRow r fun row => { row with latch := .loading line (.waiting ctx'.codeList) }).updatePort (portOf r)
        fun p => { p with waiting := joinWaiting query (letterOf r) p.waiting }
    | _ => s1
  | _ => s

/-- ASSEMBLY_END (R99). Of requesters that begin to wait together, row A comes before row B and row B before the query
(R126). Where both rows end together, row A's remaining words are read before row B's (log entry 37). A row that is not
assembling has no allowance to end (log entry 2). -/
def execAssemblyEnd (port : PortId) (rowA rowB : Bool) (env : AssemblyMoment) (s : State) :
    Host.Outcome State Fault Refusal :=
  let s1 := upset env.upsets s
  let s2 := if rowA then endAssembly env.query (rowOf port .A) s1 else s1
  .next (if rowB then endAssembly env.query (rowOf port .B) s2 else s2)

/-- The exchange of a load's shift (R127). -/
def loadExchange (g : Geometry) (p : PortId) (l : Letter) (line : Nat) (list : CodeList) : Exchange where
  header := { kind := .load, letter := l, nozzles := headNozzles g p, tag := BitVec.ofNat 8 line,
              parity := codesParity list.codes }
  codes := list.codes
  speed := headSpeed g p

/-- Serve the shift of a row's load. -/
def grantShift (p : PortId) (l : Letter) (rest : List Requester) (s : State) : State :=
  match (s.row (rowOf p l)).map Row.latch with
  | some (.loading line (.waiting list)) =>
    (s.updateRow (rowOf p l) fun row => { row with latch := .loading line (.shifting list) }).updatePort p
      fun q => { q with link := some (loadExchange s.geometry p l line list), waiting := rest }
  | _ => s.updatePort p fun q => { q with waiting := rest }

/-- LINK_GRANT (R126): the free link goes to the requester that has waited longest. A link that is not free, or for
which nobody waits, is not granted (log entry 2). -/
def execLinkGrant (port : PortId) (s : State) : Host.Outcome State Fault Refusal :=
  .next
    (match (s.port port).link, (s.port port).waiting with
    | none, .shift l :: rest => grantShift port l rest s
    | none, .query :: rest =>
      s.updatePort port fun q => { q with link := some (headerOnly s.geometry port .query .A), waiting := rest }
    | _, _ => s)

/-- The exchange on a port's link, if it is of a kind. -/
def onLink (s : State) (p : PortId) (kind : HeaderKind) : Option LineHeader :=
  match (s.port p).link with
  | some ex => if ex.header.kind = kind then some ex.header else none
  | none => none

/-- The link of a port is free. -/
def freeLink (p : PortId) (s : State) : State := s.updatePort p fun q => { q with link := none }

/-- The head's echo matches: the tag echo is that of the load, and the parity is the parity sent (R83, R128). -/
def echoMatches (h : LineHeader) (st : BriefStatus) : Bool :=
  decide (st.letter = h.letter) && decide (st.tag = h.tag) && decide (st.parityEcho = h.parity)

/-- A load completes at its row (R83): READY with the count 0, or failed with the count raised. -/
def Row.complete (row : Row) (good : Bool) : Row :=
  match row.latch with
  | .loading line (.shifting list) =>
    if good then { row with latch := .ready line list, errors := 0 }
    else { row with latch := .failed line, errors := row.errors + 1 }
  | _ => row

/-- The row's transfer-error count has reached its limit (R83). -/
def atLimit (s : State) (r : RowId) : Bool :=
  match s.row r with
  | some row => decide (Config.transferLimit ≤ row.errors)
  | none => false

/-- A brief status answers the load on a port's link (R82, R83, R128). -/
def completeLoad (p : PortId) (h : LineHeader) (st : BriefStatus) (s : State) : State :=
  let s1 := takeBrief p st s
  if st.fault then freeLink p (faultPort p .headReported s1)
  else
    let s2 := freeLink p (s1.updateRow (rowOf p h.letter) fun row => row.complete (echoMatches h st))
    if echoMatches h st = false ∧ atLimit s2 (rowOf p h.letter) = true then faultPort p .transfer s2 else s2

/-- LOAD_COMPLETION (R83, R128). An answer that meets no load on the link answers nothing and is discarded. -/
def execLoadCompletion (port : PortId) (st : BriefStatus) (s : State) : Host.Outcome State Fault Refusal :=
  .next
    (match onLink s port .load with
    | some h => completeLoad port h st s
    | none => s)

/-- LOAD_NO_ANSWER (R128, R129): the port is FAULT with cause NO ANSWER and the link is free. -/
def execLoadNoAnswer (port : PortId) (s : State) : Host.Outcome State Fault Refusal :=
  .next
    (match onLink s port .load with
    | some _ => freeLink port (faultPort port .noAnswer s)
    | none => s)

/-- LATE_ANSWER (R128): the answer is discarded and nothing changes. -/
def execLateAnswer (_port : PortId) (_answer : HeadAnswer) (s : State) : Host.Outcome State Fault Refusal := .next s

/-! ### Probes (R132, R135, R96) -/

/-- The judgement of a probe's answer (R132): none is ready, otherwise the fault cause. -/
def probeCause (st : BriefStatus) : Option FaultCause :=
  if st.fault then some .headReported else if st.ready then none else some .notReady

/-- The reply fields of CLEAR HEAD FAULT (R135, R154). -/
def clearFaultFields (p : PortId) (state : PortState) (cause : FaultCause) (answer : Option BriefStatus) : List Byte :=
  [BitVec.ofNat 8 p.val, state.code, cause.code, flagByte answer.isSome] ++ lastStatusBytes answer

/-- The recovery probe has failed (R135): the port stays FAULT with the cause of that outcome. -/
def recoveryFailed (p : PortId) (cause : FaultCause) (answer : Option BriefStatus) (s : State) : State :=
  finishWork .ok (clearFaultFields p .fault cause answer)
    (s.updatePort p fun q => { q with state := .fault, cause := cause })

/-- A row whose port has recovered: its count is 0, and it begins a load of its line (R96). -/
def recoverRow (fetched : Nat) (r : RowId) (s : State) : State :=
  beginLoad fetched r (s.updateRow r fun row => { row with errors := 0 })

/-- The rows of a port, in the order in which the surroundings take them. -/
def portRows (env : Outside) (p : PortId) : List RowId := (rowOrder env).filter fun r => portOf r = p

/-- Several rows recover, in order. -/
def recoverRows (fetched : Nat) : List RowId → State → State
  | [], s => s
  | r :: rs, s => recoverRows fetched rs (recoverRow fetched r s)

/-- The recovery probe is answered ready (R96, R135). -/
def recovered (env : Outside) (p : PortId) (answer : BriefStatus) (s : State) : State :=
  finishWork .ok (clearFaultFields p .ready .none (some answer))
    (recoverRows env.fetched (portRows env p)
      (s.updatePort p fun q => { q with state := .ready, cause := .none }))

/-- What a probe's outcome does to the request that sent it: `answer` is the status it brought, if any. -/
def endProbe (env : Outside) (p : PortId) (w : Work) (cause : Option FaultCause) (answer : Option BriefStatus)
    (s : State) : State :=
  match w, cause, answer with
  | .goOnline _, some c, _ => goOnlineFailure p c s
  | .goOnline _, none, _ => goOnlineNext p s
  | .clearFault _ .probe, some c, _ => recoveryFailed p c answer s
  | .clearFault _ .probe, none, some st => recovered env p st s
  | _, _, _ => s

/-- The request in progress has a probe out on this port. -/
def probing (s : State) (p : PortId) : Option Work :=
  match onLink s p .probe, s.link.busy with
  | some _, some (.goOnline q) => if q = p then some (.goOnline q) else none
  | some _, some (.clearFault q .probe) => if q = p then some (.clearFault q .probe) else none
  | _, _ => none

/-- The tag echo of a probe's answer: row letter A with line tag 0 (R132). -/
def answersProbe (st : BriefStatus) : Bool := decide (st.letter = .A) && decide (st.tag = 0)

/-- PROBE_ANSWER (R132). A brief status with another tag echo, or one that meets no probe, answers no probe and is
discarded. -/
def execProbeAnswer (port : PortId) (st : BriefStatus) (env : Outside) (s : State) :
    Host.Outcome State Fault Refusal :=
  let s1 := upset env.upsets s
  .next
    (match probing s port with
    | some w =>
      if answersProbe st then endProbe env port w (probeCause st) (some st) (freeLink port (takeBrief port st s1))
      else s1
    | none => s1)

/-- PROBE_TIMEOUT (R132): cause NO ANSWER. -/
def execProbeTimeout (port : PortId) (s : State) : Host.Outcome State Fault Refusal :=
  .next
    (match probing s port with
    | some w => endProbe { order := [], upsets := [], fetched := 0 } port w (some .noAnswer) none (freeLink port s)
    | none => s)

/-! ### HEAD STATUS (R133, R134) -/

/-- HEAD STATUS's judgement (R133): the query asks for the link. -/
def judgeHeadStatus (ps : List Byte) (s : State) : State × Answer :=
  if ps.length ≠ 1 then refuse 1 0 s
  else
    match toPort (fieldAt ps 0 1) with
    | none => refuse 2 0 s
    | some p =>
      if (s.port p).state = .off then reply .wrongState [] s
      else (s.updatePort p fun q => { q with waiting := q.waiting ++ [.query] }, .working (.headStatus p))

/-- HEAD_STATUS (R133). -/
def execHeadStatus (params : List Byte) (s : State) : Host.Outcome State Fault Refusal :=
  .next (takeRequest 0x80 params (judgeHeadStatus params) s)

/-- The transfer-error count of a row while ONLINE; 0 otherwise (R134). -/
def errorsOnline (s : State) (r : RowId) : Nat :=
  if s.control.op = .online then
    match s.row r with
    | some row => row.errors
    | none => 0
  else 0

/-- The reply fields of HEAD STATUS (R134). -/
def statusFields (p : PortId) (answer : Option QueryReply) (s : State) : List Byte :=
  [BitVec.ofNat 8 p.val, flagByte answer.isSome, (s.port p).state.code, (s.port p).cause.code] ++
    (match answer with
    | some a => [a.temperature, flagByte a.ready, flagByte a.fault]
    | none => [0, 0, 0]) ++
    [flagByte (s.port p).warm] ++ leBytes 1 (errorsOnline s (rowOf p .A)) ++ leBytes 1 (errorsOnline s (rowOf p .B)) ++
    lastStatusBytes (s.port p).last

/-- A query ends (R133, R134): a fault or a silence faults a READY port, the link is free, the reply is sent. -/
def endQuery (p : PortId) (answer : Option QueryReply) (s : State) : State :=
  let s1 := freeLink p s
  let s2 :=
    match answer with
    | some a => if a.fault then faultPort p .headReported s1 else s1
    | none => faultPort p .noAnswer s1
  finishWork .ok (statusFields p answer s2) s2

/-- The request in progress has a query out on this port. -/
def querying (s : State) (p : PortId) : Bool :=
  (onLink s p .query).isSome && decide (s.link.busy = some (.headStatus p))

/-- QUERY_ANSWER (R134). An answer that meets no query is discarded (R128). -/
def execQueryAnswer (port : PortId) (answer : QueryReply) (s : State) : Host.Outcome State Fault Refusal :=
  .next (if querying s port then endQuery port (some answer) s else s)

/-- QUERY_NO_ANSWER (R133). -/
def execQueryNoAnswer (port : PortId) (s : State) : Host.Outcome State Fault Refusal :=
  .next (if querying s port then endQuery port none s else s)

/-! ### CLEAR HEAD FAULT (R135) -/

/-- CLEAR HEAD FAULT's judgement (R135): the reset is sent, with row letter B. -/
def judgeClearHeadFault (ps : List Byte) (s : State) : State × Answer :=
  if s.control.op ≠ .online then reply .wrongState [] s
  else if ps.length ≠ 1 then refuse 1 0 s
  else
    match toPort (fieldAt ps 0 1) with
    | none => refuse 2 0 s
    | some p =>
      if (s.port p).state ≠ .fault then reply .wrongState [] s
      else
        (s.updatePort p fun q => { q with link := some (headerOnly s.geometry p .reset .B) },
          .working (.clearFault p .reset))

/-- CLEAR_HEAD_FAULT (R135). -/
def execClearHeadFault (params : List Byte) (s : State) : Host.Outcome State Fault Refusal :=
  .next (takeRequest 0x81 params (judgeClearHeadFault params) s)

/-- The reset is over: the recovery probe is sent (R135). -/
def sendRecoveryProbe (p : PortId) (s : State) : State :=
  sendProbe p (s.updateLink fun l => { l with busy := some (.clearFault p .probe) })

/-- The request in progress has a reset out on this port. -/
def resetting (s : State) (p : PortId) : Bool :=
  (onLink s p .reset).isSome && decide (s.link.busy = some (.clearFault p .reset))

/-- RESET_ANSWER (R135): taken without judgement. One that meets no reset is discarded (R128). -/
def execResetAnswer (port : PortId) (st : BriefStatus) (s : State) : Host.Outcome State Fault Refusal :=
  .next (if resetting s port then sendRecoveryProbe port (takeBrief port st s) else s)

/-- RESET_TIMEOUT (R135). -/
def execResetTimeout (port : PortId) (s : State) : Host.Outcome State Fault Refusal :=
  .next (if resetting s port then sendRecoveryProbe port s else s)

end Sys2Proof.Machine
end

