-- ==== Sys2Proof/Machine/ReportCommands.lean ====
section
/-! DEFINITION. The command of the Report Queue (section 9): FETCH_REPORT. -/

namespace Sys2Proof.Machine

/-- The reply fields of FETCH REPORT with a report removed (R143). -/
def reportFields (r : Report) (held : Nat) : List Byte :=
  [1, r.topic.kind] ++ leBytes 2 r.topic.page ++ leBytes 1 r.topic.unit ++ [r.topic.causeByte] ++ leBytes 6 r.pos ++
    leBytes 2 r.count ++ r.detail.bytes ++ leBytes 1 held

/-- The reply fields with the "none" mark (R143). POS and count, for which nothing is held, are 0 (log entry 39). -/
def noReportFields : List Byte := List.replicate 23 0

/-- FETCH REPORT's judgement (R143, R144). -/
def judgeFetchReport (ps : List Byte) (s : State) : State × Answer :=
  if ps ≠ [] then refuse 1 0 s
  else
    match s.reports.queue with
    | [] => reply .ok noReportFields s
    | r :: rest =>
      reply .ok (reportFields r rest.length) { s with reports := { queue := rest, attention := !rest.isEmpty } }

/-- FETCH_REPORT (R143). -/
def execFetchReport (params : List Byte) (s : State) : Host.Outcome State Fault Refusal :=
  .next (takeRequest 0x90 params (judgeFetchReport params) s)

end Sys2Proof.Machine
end

