-- ==== Sys2Proof/Machine/StripeCommands.lean ====
section
/-! DEFINITION. The commands of the Stripe Store (section 4): SET_RING_SIZES, SET_STARVE_THRESHOLD, STRIPE_CHECKSUM,
CHECKSUM_READBACK_END, READ_MEMORY_ERRORS, STRIPE_PIECE. -/

namespace Sys2Proof.Machine

/-! ### SET RING SIZES (R54) -/

/-- The capacity a block gives bar b. -/
def sizeField (ps : List Byte) (b : BarId) : Nat := fieldAt ps (2 * b.val) 2

/-- The first failing check of R54. -/
def sizesFailure (ps : List Byte) : Option Nat :=
  if ps.length ≠ 8 then some 1
  else if allBars.any fun b => 1024 < sizeField ps b then some 2
  else if 1024 < (allBars.map (sizeField ps)).sum then some 3
  else none

/-- A bar with a new capacity: its ring emptied, its threshold lowered to the capacity (R54). -/
def resizeBar (c : Nat) (bs : BarStore) : BarStore :=
  { bs with capacity := c, ring := [], ahead := 0, threshold := min bs.threshold c }

/-- The bars with their new capacities and runs (R53, R54). -/
def resizedBars (ps : List Byte) (bars : Vector BarStore 4) : Vector BarStore 4 :=
  let sized : Vector BarStore 4 := Vector.ofFn fun b => resizeBar (sizeField ps b) (entry bars b)
  Vector.ofFn fun b => { entry sized b with nextSlot := emptyNextSlot sized b }

/-- The reply fields of SET RING SIZES (R54, R154). -/
def sizesFields (bars : Vector BarStore 4) : List Byte :=
  (allBars.map fun b =>
    leBytes 2 (entry bars b).capacity ++ leBytes 2 ((emptyNextSlot bars b).getD 0) ++
      leBytes 2 (entry bars b).threshold).flatten

/-- SET RING SIZES's judgement (R54). -/
def judgeSetRingSizes (ps : List Byte) (s : State) : State × Answer :=
  if s.control.op ≠ .setup then reply .wrongState [] s
  else
    match sizesFailure ps with
    | some check => refuse check 0 s
    | none =>
      let bars := resizedBars ps s.store.bars
      reply .ok (sizesFields bars) { s with store := { s.store with bars := bars } }

/-- SET_RING_SIZES (R54). -/
def execSetRingSizes (params : List Byte) (s : State) : Host.Outcome State Fault Refusal :=
  .next (takeRequest 0x60 params (judgeSetRingSizes params) s)

/-! ### SET STARVE THRESHOLD (R67) -/

/-- SET STARVE THRESHOLD's judgement (R67). -/
def judgeSetStarveThreshold (ps : List Byte) (s : State) : State × Answer :=
  if ps.length ≠ 3 then refuse 1 0 s
  else
    match toBar (fieldAt ps 0 1) with
    | none => refuse 2 0 s
    | some b =>
      let t := min (fieldAt ps 1 2) (s.bar b).capacity
      reply .ok (leBytes 1 b.val ++ leBytes 2 t) (evaluateStarve (s.updateBar b fun bs => { bs with threshold := t }))

/-- SET_STARVE_THRESHOLD (R67). -/
def execSetStarveThreshold (params : List Byte) (s : State) : Host.Outcome State Fault Refusal :=
  .next (takeRequest 0x61 params (judgeSetStarveThreshold params) s)

/-! ### STRIPE CHECKSUM (R74) -/

/-- The record that STRIPE CHECKSUM finds: COMPLETE and not released. -/
def findComplete (ring : List Stripe) (page index : Nat) : Option Stripe :=
  ring.find? fun st => st.is page index && decide (st.state = .complete)

/-- The readback of a record as it begins. -/
def startReadback (g : Geometry) (b : BarId) (st : Stripe) : Readback where
  bar := b
  page := st.page
  index := st.index
  rows := st.rows
  slot := st.slot
  rowBytes := rowBytes g b
  wordsRead := 0
  sum := 0
  bad := 0

/-- STRIPE CHECKSUM's judgement (R74): `first` words are read before the command ends (log entry 8). -/
def judgeStripeChecksum (ps : List Byte) (first : Nat) (s : State) : State × Answer :=
  if s.control.op ≠ .online then reply .wrongState [] s
  else if ps.length ≠ 5 then refuse 1 0 s
  else
    match toBar (fieldAt ps 0 1) with
    | none => refuse 2 0 s
    | some b =>
      match findComplete (s.bar b).ring (fieldAt ps 1 2) (fieldAt ps 3 2) with
      | none => reply .notFound [] s
      | some st =>
        let r := readbackWords first (startReadback s.geometry b st) s
        (r.2, .working (.checksum r.1))

/-- STRIPE_CHECKSUM (R74). -/
def execStripeChecksum (params : List Byte) (env : Outside) (s : State) : Host.Outcome State Fault Refusal :=
  .next (takeRequest 0x62 params (judgeStripeChecksum params env.fetched) (upset env.upsets s))

/-- The RETIRED mark of the reply: the stripe is retired, or has left its ring, which takes a retirement (R74). -/
def readbackRetired (rb : Readback) (s : State) : Bool :=
  match (s.bar rb.bar).ring.find? fun st => st.is rb.page rb.index with
  | some st => st.retired
  | none => true

/-- The reply fields of STRIPE CHECKSUM (R74). -/
def checksumFields (rb : Readback) (retired : Bool) : List Byte :=
  leBytes 2 rb.sum ++ leBytes 2 rb.bad ++ leBytes 1 rb.rows ++ [flagByte retired]

/-- The readback ends: the words not yet read are read, and the reply is sent (R74). -/
def endReadback (rb : Readback) (s : State) : State :=
  let r := readbackWords (rb.total - rb.wordsRead) rb s
  finishWork .ok (checksumFields r.1 (readbackRetired rb r.2)) r.2

/-- CHECKSUM_READBACK_END (R74). With no readback in progress nothing is read (log entry 2). -/
def execChecksumReadbackEnd (upsets : List Upset) (s : State) : Host.Outcome State Fault Refusal :=
  .next
    (match s.link.busy with
    | some (.checksum rb) => endReadback rb (upset upsets s)
    | _ => upset upsets s)

/-! ### READ MEMORY ERRORS (R73) -/

/-- The twelve capture bytes (R73). -/
def captureBytes : Option Capture → List Byte
  | none => List.replicate 12 0
  | some c =>
    [c.source.byte, BitVec.ofNat 8 c.bar.val] ++ leBytes 2 c.slot ++ leBytes 2 c.page ++ leBytes 2 c.stripe ++
      leBytes 1 c.place ++ leBytes 1 c.word ++ [0, 0]

/-- The reply fields of READ MEMORY ERRORS (R73). -/
def errorFields (st : Store) : List Byte :=
  [flagByte st.capture.isSome] ++ captureBytes st.capture ++ leBytes 4 st.corrected ++ leBytes 2 st.uncorrected

/-- READ MEMORY ERRORS's judgement (R73): parameter 0 KEEP, 1 CLEAR. -/
def judgeReadMemoryErrors (ps : List Byte) (s : State) : State × Answer :=
  if ps.length ≠ 1 then refuse 1 0 s
  else if 1 < fieldAt ps 0 1 then refuse 2 0 s
  else if fieldAt ps 0 1 = 0 then reply .ok (errorFields s.store) s
  else
    reply .ok (errorFields s.store)
      { s with store := { s.store with capture := none, corrected := 0, uncorrected := 0 } }

/-- READ_MEMORY_ERRORS (R73). -/
def execReadMemoryErrors (params : List Byte) (s : State) : Host.Outcome State Fault Refusal :=
  .next (takeRequest 0x63 params (judgeReadMemoryErrors params) s)

/-! ### STRIPE PIECE (R57 to R62) -/

/-- The fields of R62 for a bar. -/
def pieceFields (b : BarId) (s : State) : List Byte :=
  let bs := s.bar b
  leBytes 1 b.val ++ leBytes 2 bs.free ++ leBytes 2 bs.ahead ++
    (match bs.cursor with
    | some c => [1] ++ leBytes 2 c.page ++ leBytes 2 c.index ++ leBytes 1 c.row
    | none => [0, 0, 0, 0, 0, 0]) ++
    [flagByte s.store.starve]

/-- The piece begins where the cursor stands (R57 check 3). -/
def atCursor (pc : Piece) (cursor : Option StripeCursor) : Bool :=
  match cursor with
  | none => false
  | some c => decide (pc.page = c.page) && decide (pc.index = c.index) && decide (pc.firstRow = c.row)

/-- Check 4 of R58 refuses; R is the rows of the stripe at the cursor. -/
def badPieceShape (rowBytes R : Nat) (pc : Piece) : Bool :=
  decide (pc.rowCount = 0) || decide (8 < pc.rowCount) || decide (pc.length ≠ 10 + pc.rowCount * rowBytes) ||
    decide (R < pc.firstRow + pc.rowCount)

/-- Check 6 of R58 refuses. -/
def wrongFinal (R : Nat) (pc : Piece) : Bool :=
  if pc.final then decide (pc.firstRow + pc.rowCount < R) else decide (pc.firstRow + pc.rowCount = R)

/-- Open a record at the tail of a ring (R59). -/
def openStripe (b : BarId) (pc : Piece) (R : Nat) (s : State) : State :=
  s.updateBar b fun bs =>
    { bs with
      ring := bs.ring ++ [
        { page := pc.page, index := pc.index, rows := R, slot := bs.nextSlot.getD 0, received := 0,
          state := .filling, sum := 0, taken := false, retired := false, released := false }]
      nextSlot := bs.nextSlot.map (slotAfter (firstSlot s.store.bars b) bs.capacity) }

/-- Write the rows of a piece to consecutive row places (R52, R59). -/
def writeRows (slot rowBytes : Nat) : Nat → Nat → List Byte → Store → Store
  | _, 0, _, st => st
  | place, n + 1, data, st =>
    writeRows slot rowBytes (place + 1) n (data.drop rowBytes) (writeRow slot place (data.take rowBytes) st)

/-- Change the FILLING record of a ring. -/
def changeFilling (f : Stripe → Stripe) (ring : List Stripe) : List Stripe :=
  ring.map fun st => if st.state = .filling then f st else st

/-- Store a piece's rows into the FILLING record (R59). -/
def storeRows (b : BarId) (pc : Piece) (s : State) : State :=
  match (s.bar b).filling with
  | none => s
  | some st =>
    let s1 := { s with
      store := writeRows st.slot (rowBytes s.geometry b) pc.firstRow pc.rowCount pc.data s.store }
    s1.updateBar b fun bs =>
      { bs with
        ring := changeFilling (fun st =>
          { st with received := st.received + pc.rowCount, sum := (st.sum + Frame.byteSum pc.data) % 65536 }) bs.ring }

/-- A stripe whose sum matches is COMPLETE (R60): judged for retirement at once, else counted ahead. -/
def completeStripe (b : BarId) (pc : Piece) (s : State) : State :=
  let s1 := (s.updateBar b fun bs =>
      { bs with ring := changeFilling (fun st => { st with state := .complete }) bs.ring }).updatePage pc.page
    fun p => { p with complete := put p.complete b (entry p.complete b + 1) }
  let retire := match (s1.bar b).ring.getLast? with
    | some st => retirementDue s1 b st
    | none => false
  let s2 := s1.updateBar b fun bs =>
    if retire then
      { bs with
        ring := leaveFromHead (bs.ring.map fun st => if st.is pc.page pc.index then { st with retired := true } else st) }
    else { bs with ahead := bs.ahead + 1 }
  evaluateStarve (refreshCursors s2)

/-- A stripe whose sum differs is discarded whole (R61). -/
def discardStripe (b : BarId) (s : State) : State :=
  refreshCursors (s.updateBar b fun bs =>
    { bs with
      ring := bs.ring.filter fun st => st.state ≠ .filling
      nextSlot := match bs.filling with
        | some st => some st.slot
        | none => bs.nextSlot })

/-- The running sum of the FILLING record. -/
def fillingSum (bs : BarStore) : Nat :=
  match bs.filling with
  | some st => st.sum
  | none => 0

/-- Store a piece that passes every check (R59 to R61): the new state and the status of the reply. -/
def storePiece (b : BarId) (pc : Piece) (R : Nat) (s : State) : State × Status :=
  let s1 := storeRows b pc (if pc.firstRow = 0 then openStripe b pc R s else s)
  if pc.final then
    if fillingSum (s1.bar b) = pc.sum then (completeStripe b pc s1, .ok) else (discardStripe b s1, .stripeCheck)
  else (refreshCursors s1, .ok)

/-- The judgement of a stripe piece (R57, R58). -/
def judgeStripePiece (body : List Byte) (s : State) : State × Answer :=
  if s.control.op ≠ .online then reply .wrongState [] s
  else
    let pc := readPiece body
    match toBar pc.bar with
    | none => refuse 1 0 s
    | some b =>
      if hasHeads s.geometry b = false ∨ (s.bar b).capacity = 0 then refuse 1 0 s
      else
        match findPage s.pages pc.page with
        | none => reply .notFound (pieceFields b s) s
        | some p =>
          let R := stripeRows p.length pc.index
          if entry p.bars b = false then reply .notFound (pieceFields b s) s
          else if atCursor pc (s.bar b).cursor = false then reply .sequence (pieceFields b s) s
          else if badPieceShape (rowBytes s.geometry b) R pc then reply .badParameter ([4, 0] ++ pieceFields b s) s
          else if pc.firstRow = 0 ∧ (s.bar b).filling = none ∧ (s.bar b).free = 0 then
            reply .ringFull (pieceFields b s) s
          else if wrongFinal R pc then reply .sequence (pieceFields b s) s
          else
            let r := storePiece b pc R s
            reply r.2 (pieceFields b r.1) r.1

/-- STRIPE_PIECE (R57). -/
def execStripePiece (body : List Byte) (s : State) : Host.Outcome State Fault Refusal :=
  .next (takeData body (judgeStripePiece body) s)

end Sys2Proof.Machine
end

