-- ==== Sys2Proof/Machine/Dispatch.lean ====
section
/-! DEFINITION. What each command does: one arm per row of spec/opcode_table.json, each a direct call of its
meaning. -/

namespace Sys2Proof.Machine

/-- The effect of a command on everything but the queue of commands. -/
def exec (i : Instr) (s : State) : Host.Outcome State Fault Refusal :=
  match i with
  | .powerOnReset encA encB trigger => Sys2Proof.Machine.execPowerOnReset encA encB trigger s
  | .encoderChange a b env => Sys2Proof.Machine.execEncoderChange a b env s
  | .assemblyEnd port rowA rowB env => Sys2Proof.Machine.execAssemblyEnd port rowA rowB env s
  | .linkGrant port => Sys2Proof.Machine.execLinkGrant port s
  | .loadCompletion port st => Sys2Proof.Machine.execLoadCompletion port st s
  | .loadNoAnswer port => Sys2Proof.Machine.execLoadNoAnswer port s
  | .lateAnswer port answer => Sys2Proof.Machine.execLateAnswer port answer s
  | .playCompletion row => Sys2Proof.Machine.execPlayCompletion row s
  | .triggerEdge level env => Sys2Proof.Machine.execTriggerEdge level env s
  | .badFrame kind length rest => Sys2Proof.Machine.execBadFrame kind length rest s
  | .frameTimeout => Sys2Proof.Machine.execFrameTimeout s
  | .unknownRequest code params => Sys2Proof.Machine.execUnknownRequest code params s
  | .replySent => Sys2Proof.Machine.execReplySent s
  | .trialRevert => Sys2Proof.Machine.execTrialRevert s
  | .setLinkRate params => Sys2Proof.Machine.execSetLinkRate params s
  | .sync params => Sys2Proof.Machine.execSync params s
  | .goOnline params => Sys2Proof.Machine.execGoOnline params s
  | .probeAnswer port st env => Sys2Proof.Machine.execProbeAnswer port st env s
  | .probeTimeout port => Sys2Proof.Machine.execProbeTimeout port s
  | .goOffline params => Sys2Proof.Machine.execGoOffline params s
  | .clear params => Sys2Proof.Machine.execClear params s
  | .drainComplete => Sys2Proof.Machine.execDrainComplete s
  | .defineHead params => Sys2Proof.Machine.execDefineHead params s
  | .loadStitchMask params => Sys2Proof.Machine.execLoadStitchMask params s
  | .loadDefectList params => Sys2Proof.Machine.execLoadDefectList params s
  | .setMotion params => Sys2Proof.Machine.execSetMotion params s
  | .readPosition params => Sys2Proof.Machine.execReadPosition params s
  | .openPage params => Sys2Proof.Machine.execOpenPage params s
  | .abortPage params env => Sys2Proof.Machine.execAbortPage params env s
  | .releasePage params => Sys2Proof.Machine.execReleasePage params s
  | .pageStatus params => Sys2Proof.Machine.execPageStatus params s
  | .setRingSizes params => Sys2Proof.Machine.execSetRingSizes params s
  | .setStarveThreshold params => Sys2Proof.Machine.execSetStarveThreshold params s
  | .stripeChecksum params env => Sys2Proof.Machine.execStripeChecksum params env s
  | .checksumReadbackEnd upsets => Sys2Proof.Machine.execChecksumReadbackEnd upsets s
  | .readMemoryErrors params => Sys2Proof.Machine.execReadMemoryErrors params s
  | .stripePiece body => Sys2Proof.Machine.execStripePiece body s
  | .loadWaveform params => Sys2Proof.Machine.execLoadWaveform params s
  | .setDriveScale params => Sys2Proof.Machine.execSetDriveScale params s
  | .setGuard params => Sys2Proof.Machine.execSetGuard params s
  | .releaseGuard params => Sys2Proof.Machine.execReleaseGuard params s
  | .readGuard params => Sys2Proof.Machine.execReadGuard params s
  | .headStatus params => Sys2Proof.Machine.execHeadStatus params s
  | .queryAnswer port answer => Sys2Proof.Machine.execQueryAnswer port answer s
  | .queryNoAnswer port => Sys2Proof.Machine.execQueryNoAnswer port s
  | .clearHeadFault params => Sys2Proof.Machine.execClearHeadFault params s
  | .resetAnswer port st => Sys2Proof.Machine.execResetAnswer port st s
  | .resetTimeout port => Sys2Proof.Machine.execResetTimeout port s
  | .fetchReport params => Sys2Proof.Machine.execFetchReport params s
  | .startMark kind => Sys2Proof.Machine.execStartMark kind s

end Sys2Proof.Machine
end

