-- ==== Sys2Proof/Safety.lean ====
section
/-! DEFINITION. The terms in which claims are stated: when a frame is taken, what a reply adds to the part, and the
conditions that every reachable state of the part meets. -/

namespace Sys2Proof.Machine

/-! ### Taking frames and answering them (R148 to R152) -/

/-- The entry is a reply ready to send. -/
def ReplyEntry.isReady : ReplyEntry → Bool
  | .ready _ => true
  | .place _ => false

/-- The head entry is a ready reply. -/
def headReady (entries : List ReplyEntry) : Bool :=
  match entries with
  | [] => false
  | e :: _ => e.isReady

/-- A frame of this kind can complete now and find a free place in the reply queue. -/
def Receives (kind : FrameKind) (s : State) : Prop :=
  canReceive s.link kind = true ∧ s.link.replies.length < Config.replyPlaces

/-- A good frame of this kind becomes the request in progress: it is received, no request is in progress and no place
stands in the reply queue. -/
def Takes (kind : FrameKind) (s : State) : Prop :=
  Receives kind s ∧ s.link.busy = none ∧ s.link.replies.all ReplyEntry.isReady = true

/-- The part once a good frame has ended: the receiver hunts and a trial is closed. -/
def heard (s : State) : State := { s with link := { s.link with receiver := none, trialOpen := false } }

/-- The part with a reply added at the tail of its queue; a transmitter that sends nothing begins the head entry where
that is ready. -/
def replied (r : Reply) (s : State) : State :=
  { s with
    link := { s.link with
      replies := s.link.replies ++ [.ready r]
      sending := if s.link.sending = none ∧ headReady (s.link.replies ++ [.ready r]) = true then some s.link.rate
        else s.link.sending } }

/-- The part once a good frame has been taken and answered at once. -/
def answered (echo : Byte) (st : Status) (fields : List Byte) (s : State) : State :=
  replied { status := st, echo := echo, fields := fields } (heard s)

/-- The part once a good frame has been taken as a request whose work lasts. -/
def undertaken (echo : Byte) (w : Work) (s : State) : State :=
  { s with
    link := { s.link with
      receiver := none, trialOpen := false
      replies := s.link.replies ++ [.place echo]
      busy := some w } }

/-- A frame of a bad length, end mark or check has this reason byte (R148). -/
def badFrameReason : BadReason → Byte
  | .length => 1
  | .endMark => 2
  | .check => 3

/-! ### What commands leave alone -/

/-- The blocks that no event at a row touches: the Control Unit, the drives' tables, the Link Controller, the queue of
commands, the loaded tables, image memory, and the state, cause, last status and warm flag of every port. -/
structure RowsOnly (s t : State) : Prop where
  pending : t.pending = s.pending
  control : t.control = s.control
  drives : t.drives = s.drives
  link : t.link = s.link
  heads : t.geometry.heads = s.geometry.heads
  masks : t.geometry.masks = s.geometry.masks
  defects : t.geometry.defects = s.geometry.defects
  memory : t.store.memory = s.store.memory
  ports : ∀ p : PortId, (t.port p).state = (s.port p).state ∧ (t.port p).cause = (s.port p).cause ∧
    (t.port p).last = (s.port p).last ∧ (t.port p).warm = (s.port p).warm

/-- The place of a pair of encoder levels in the forward cycle (0,0), (1,0), (1,1), (0,1) of R21. -/
def quadrant : Bool → Bool → Nat
  | false, false => 0
  | true, false => 1
  | true, true => 2
  | false, true => 3

/-! ### Heads side by side (R6, R7) -/

/-- The heads at ports x and y are a consecutive pair of a bar: no port between them is defined. -/
structure Consecutive (g : Geometry) (x y : PortId) (hx hy : Head) : Prop where
  bar : barOf x = barOf y
  before : x < y
  left : entry g.heads x = some hx
  right : entry g.heads y = some hy
  between : ∀ z : PortId, x < z → z < y → entry g.heads z = none

/-- The defined heads of a port's bar at lower ports; for the left head of a pair it is the pair's index. -/
def headsBelow (g : Geometry) (x : PortId) : Nat :=
  (allPorts.filter fun z => decide (barOf z = barOf x) && decide (z < x) && (entry g.heads z).isSome).length

/-! ### The Motion Unit (R20, R23, R33) -/

/-- The ranges of the Motion Unit's fields, and HWM never less than POS. -/
structure MotionOk (s : State) : Prop where
  pos_le_hwm : s.motion.pos ≤ s.motion.hwm
  hwm_le : s.motion.hwm ≤ Config.maxPosition
  trigger_le : s.motion.lastTrigger ≤ s.motion.hwm
  lockout_le : s.motion.lockoutEnd ≤ s.motion.hwm + 2164260863
  errors_le : s.motion.encoderErrors ≤ 65535
  pitch : 65536 ≤ s.motion.pitch ∧ s.motion.pitch ≤ 4294967295
  delay : 1 ≤ s.motion.delay ∧ s.motion.delay ≤ 16777215
  gap : 1 ≤ s.motion.gap ∧ s.motion.gap ≤ 16777215
  lengths : ∀ p ∈ s.pages, 1 ≤ p.length ∧ p.length ≤ 32768

/-! ### The Page Queue (R32, R35, R39 to R45) -/

/-- The row channels of a page's bars. -/
def pageRows (s : State) (p : Page) : List RowId :=
  allRows.filter fun r => (s.row r).isSome && entry p.bars (rowBar r)

/-- The lines of a STARTED page that a row of its bars has decided: those below its cursor on the page, all of them
once it is on a later page or idle, none while it is on an earlier page (R45, R92, R93). -/
def decidedLines (s : State) (p : Page) (r : RowId) : Nat :=
  match (s.row r).bind (·.cursor) with
  | none => p.length
  | some c =>
    if c.page = p.id then c.line else if placeOf s.pages p.id < placeOf s.pages c.page then p.length else 0

/-- One page record. Its rows are the row channels of its bars; the lines fired and dropped of a STARTED page are those
its rows have decided, and the rows that have finished with it are counted; fired, dropped and abandoned lines of a
DONE page make up all its lines; a page that has been started has its start D beyond its trigger, at or below HWM, and
its lockout within the lockout end. -/
structure PageOk (s : State) (p : Page) : Prop where
  rows : p.rows = (pageRows s p).length
  rows_pos : 0 < p.rows
  expected : ∀ b : BarId, entry p.expected b = if entry p.bars b then (p.length + 63) / 64 else 0
  blank_le : p.blank ≤ p.fired
  dropped_flag : p.flags.dropped = decide (0 < p.dropped.total)
  aborted_flag : p.flags.aborted = decide (p.abortMark ≠ .notAborted)
  triggered : p.trigger.isSome = (decide (p.state = .started) || decide (p.state = .done ∧ p.abortMark ≠ .abortedOpen))
  opened : p.state = .opened → p.start = none ∧ p.rowsFinished = 0 ∧ p.fired = 0 ∧ p.dropped.total = 0 ∧
    p.abandoned = 0 ∧ p.abortMark = .notAborted
  started : p.state = .started → p.abandoned = 0 ∧ p.abortMark = .notAborted ∧ p.rowsFinished < p.rows ∧
    p.fired + p.dropped.total = ((pageRows s p).map (decidedLines s p)).sum ∧
    p.rowsFinished = ((pageRows s p).filter fun r => decidedLines s p r = p.length).length
  done : p.state = .done → p.rowsFinished = p.rows ∧
    p.fired + p.dropped.total + p.abandoned = p.length * p.rows ∧ (p.abortMark = .notAborted → p.abandoned = 0)
  timed : ∀ T, p.trigger = some T → p.start = some (T + s.motion.delay) ∧ T ≤ s.motion.hwm ∧
    T + lockoutLength p.length s.motion.pitch s.motion.gap ≤ s.motion.lockoutEnd

/-- At most 8 records, page ids distinct, no OPEN page before a page that is STARTED or ever was, the triggers of
successive pages a lockout apart, and every record in order. -/
structure PagesOk (s : State) : Prop where
  length_le : s.pages.length ≤ 8
  ids_distinct : (s.pages.map (·.id)).Nodup
  opened_last : s.pages.Pairwise fun p q => q.state = .started → p.state ≠ .opened
  apart : s.pages.Pairwise fun p q => ∀ T', q.trigger = some T' → p.state ≠ .opened ∧
    ∀ T, p.trigger = some T → T + lockoutLength p.length s.motion.pitch s.motion.gap ≤ T'
  records : ∀ p ∈ s.pages, PageOk s p

/-! ### The Report Queue (R137, R139, R140, R144) -/

/-- At most 32 reports and 31 ordinary ones, no two with one kind and subject, counts 1 to 65535, and ATTENTION
asserted exactly while a report is held. -/
structure ReportsOk (s : State) : Prop where
  length_le : s.reports.queue.length ≤ 32
  ordinary_le : ordinaryHeld s.reports.queue ≤ 31
  topics_distinct : (s.reports.queue.map (·.topic)).Nodup
  counts : ∀ r ∈ s.reports.queue, 1 ≤ r.count ∧ r.count ≤ 65535
  attention : s.reports.attention = !s.reports.queue.isEmpty

/-! ### Image memory (R52) -/

/-- Image memory is in its canonical form, and the words whose check bits show them wrong are listed once each, in
rising order. -/
structure MemoryOk (s : State) : Prop where
  canonical : Memory.wf s.store.memory = true
  rising : s.store.damage.Pairwise fun c d => c.1 < d.1

/-! ### The Link Controller (R149) -/

/-- The places that stand in the reply queue. -/
def places (entries : List ReplyEntry) : Nat := (entries.filter fun e => !e.isReady).length

/-- At most 32 entries, one place exactly while a request is in progress, and the transmitter sending exactly while
the head entry is a ready reply. -/
structure LinkOk (s : State) : Prop where
  length_le : s.link.replies.length ≤ 32
  one_place : places s.link.replies = if s.link.busy.isSome then 1 else 0
  sending_iff : s.link.sending.isSome = headReady s.link.replies

/-! ### Operating states (R68, R69, R76, R97, R149, R155) -/

/-- The operating states in which a request can be in progress. -/
def Work.fits : Work → OpState → Bool
  | .goOnline _, op => decide (op = .starting)
  | .drain _ _, op => decide (op = .draining)
  | .checksum _, op => decide (op = .online)
  | .clearFault _ _, op => decide (op = .online)
  | .headStatus _, op => decide (op = .setup) || decide (op = .online)

/-- The request in progress fits the operating state, and STARTING and DRAINING last only while one is. -/
def workFits (s : State) : Bool :=
  match s.link.busy with
  | some w => w.fits s.control.op
  | none => decide (s.control.op = .setup) || decide (s.control.op = .online)

/-- The operating state and what it governs: the request in progress, SLOWDOWN and the starve condition, the page
queue, and the row channels, which exist for the rows of defined heads while the part is ONLINE or DRAINING. -/
structure OperatingOk (s : State) : Prop where
  work : workFits s = true
  slowdown : s.store.slowdown = s.store.starve
  starve_online : s.store.starve = true → s.control.op = .online
  pages_online : s.pages ≠ [] → s.control.op = .online
  rows_exist : ∀ r : RowId, (s.row r).isSome =
    ((decide (s.control.op = .online) || decide (s.control.op = .draining)) && (entry s.geometry.heads (portOf r)).isSome)

/-! ### Row channels and head ports (R76, R77, R83, R126) -/

/-- The line that a latch is tagged with. -/
def Latch.line? : Latch → Option Nat
  | .empty => none
  | .failed k => some k
  | .loading k _ => some k
  | .ready k _ => some k

/-- The latch holds a load whose shift waits for the link. -/
def Latch.waits : Latch → Bool
  | .loading _ (.waiting _) => true
  | .loading _ (.shifting _) => false
  | .loading _ (.assembling _) => false
  | .empty => false
  | .failed _ => false
  | .ready _ _ => false

/-- The line of a load whose shift is on the link or whose answer is awaited. -/
def Latch.shifting? : Latch → Option Nat
  | .loading k (.shifting _) => some k
  | .loading _ (.waiting _) => none
  | .loading _ (.assembling _) => none
  | .empty => none
  | .failed _ => none
  | .ready _ _ => none

/-- The row letter and line tag of the load that a link carries. -/
def carriedLoad (link : Option Exchange) : Option (Letter × Byte) :=
  match link with
  | some ex => if ex.header.kind = .load then some (ex.header.letter, ex.header.tag) else none
  | none => none

/-- One row channel with its port. -/
structure RowOk (p : Port) (op : OpState) (l : Letter) (row : Row) : Prop where
  fire_iff : row.fire.isSome = row.cursor.isSome
  tagged : ∀ k, row.latch.line? = some k → row.cursor.map (·.line) = some k
  unready_empty : p.state ≠ .ready → row.latch = .empty
  loaded : op = .online → p.state = .ready → row.cursor.isSome = true → row.latch ≠ .empty
  offline_idle : op ≠ .online → row.cursor = none ∧ row.latch = .empty
  errors_le : row.errors ≤ 16
  errors_limit : row.errors = 16 → p.state ≠ .ready
  waits_iff : row.latch.waits = true ↔ Requester.shift l ∈ p.waiting
  shifts_iff : ∀ k, row.latch.shifting? = some k → carriedLoad p.link = some (l, BitVec.ofNat 8 k)

/-- A working row's cursor names a line of a STARTED page of its bar, and its fire position is that line's (R78) and
lies above HWM (R25, R77). -/
structure CursorOk (s : State) (r : RowId) (row : Row) (c : Cursor) (p : Page) (start : Nat) : Prop where
  named : p.id = c.page
  started : p.state = .started
  bar : entry p.bars (rowBar r) = true
  line : c.line < p.length
  begun : p.start = some start
  fire : row.fire = some (start + (rowOffset s.geometry r + c.line * s.motion.pitch + 32768) / 65536)
  ahead : s.motion.hwm < start + (rowOffset s.geometry r + c.line * s.motion.pitch + 32768) / 65536

/-- Every row channel agrees with its port and every working row with its page; a link carries, and lets wait, only
loads of rows that are at them; nobody waits twice; a defined port is not OFF; and a port that CLEAR HEAD FAULT works on
is FAULT. -/
structure RowsOk (s : State) : Prop where
  working : ∀ (r : RowId) (row : Row) (c : Cursor), s.row r = some row → row.cursor = some c →
    ∃ p ∈ s.pages, ∃ start, CursorOk s r row c p start
  served : ∀ p : PortId, (entry s.geometry.heads p).isSome = true → (s.port p).state ≠ .off
  rows : ∀ r : RowId, ∀ row, s.row r = some row → RowOk (s.port (portOf r)) s.control.op (letterOf r) row
  carried : ∀ (p : PortId) (l : Letter) (tag : Byte), carriedLoad (s.port p).link = some (l, tag) →
    ∃ row k, s.row (rowOf p l) = some row ∧ row.latch.shifting? = some k
  waiting : ∀ (p : PortId) (l : Letter), Requester.shift l ∈ (s.port p).waiting → (s.row (rowOf p l)).isSome = true
  waiting_once : ∀ p : PortId, ((s.port p).waiting.filter fun q => q ≠ .query).Nodup
  clearing : ∀ (p : PortId) (stage : ClearStage), s.link.busy = some (.clearFault p stage) → (s.port p).state = .fault

/-! ### The Stripe Store (R53, R55, R56, R66) -/

/-- One record of bar b's ring against the page queue and the bar's cursor. A record that answers to its page belongs
to a page in the queue that names the bar and has the rows of that page's stripe, and no page before that one still
lacks stripes for the bar; a stripe of a DONE page is retired; a released record is retired; a COMPLETE record has all
its rows and has been counted complete; a FILLING record is the stripe at the cursor, some of its rows stored, and no
row has taken it. -/
structure StripeOk (s : State) (b : BarId) (st : Stripe) : Prop where
  paged : st.released = false → ∃ p ∈ s.pages, p.id = st.page ∧ entry p.bars b = true ∧
    (p.state = .done → st.retired = true) ∧ (st.state = .complete → st.index < entry p.complete b) ∧
    st.rows = stripeRows p.length st.index
  settled : st.released = false → ∀ q ∈ s.pages, placeOf s.pages q.id < placeOf s.pages st.page →
    lacksStripes b q = false
  released_retired : st.released = true → st.retired = true
  complete : st.state = .complete → st.received = st.rows
  filling : st.state = .filling → st.taken = false ∧ st.retired = false ∧ st.released = false ∧ 0 < st.received ∧
    st.received < st.rows ∧ (s.bar b).cursor = some { page := st.page, index := st.index, row := st.received }
  sum_lt : st.sum < 65536

/-- A slot lies within a bar's run (R53). -/
def inRun (s : State) (b : BarId) (slot : Nat) : Prop :=
  firstSlot s.store.bars b ≤ slot ∧ slot < firstSlot s.store.bars b + (s.bar b).capacity

/-- What the Stripe Store holds for one bar: its stripes stand in page-queue order and then in ascending index, no two
alike, in successive slots of the bar's run, the next slot behind the last (R53, R55, R59). -/
structure BarOk (s : State) (b : BarId) : Prop where
  length_le : (s.bar b).ring.length ≤ (s.bar b).capacity
  threshold_le : (s.bar b).threshold ≤ (s.bar b).capacity
  next_slot : (s.bar b).nextSlot.isSome = decide ((s.bar b).capacity ≠ 0)
  next_in_run : ∀ n, (s.bar b).nextSlot = some n → inRun s b n
  slots_in_run : ∀ st ∈ (s.bar b).ring, inRun s b st.slot
  slots_follow : ∀ front x y back, (s.bar b).ring = front ++ x :: y :: back →
    y.slot = slotAfter (firstSlot s.store.bars b) (s.bar b).capacity x.slot
  next_follows : ∀ front x, (s.bar b).ring = front ++ [x] →
    (s.bar b).nextSlot = some (slotAfter (firstSlot s.store.bars b) (s.bar b).capacity x.slot)
  slots_distinct : ((s.bar b).ring.map (·.slot)).Nodup
  newest_fills : ∀ st ∈ (s.bar b).ring.dropLast, st.state = .complete
  ordered : (s.bar b).ring.Pairwise fun x y => x.released = false → y.released = false →
    placeOf s.pages x.page < placeOf s.pages y.page ∨ x.page = y.page ∧ x.index < y.index
  counts : ∀ p ∈ s.pages, entry p.complete b ≤ entry p.expected b
  cursor : (s.bar b).cursor = cursorOf s.pages (s.bar b) b
  ahead : (s.bar b).ahead = ((s.bar b).ring.filter Stripe.counted).length
  stripes : ∀ st ∈ (s.bar b).ring, StripeOk s b st

/-- The Stripe Store: the four rings share 1024 slots, rings hold stripes only while ONLINE, and every bar is in
order. -/
structure StoreOk (s : State) : Prop where
  capacities : (allBars.map fun b => (s.bar b).capacity).sum ≤ 1024
  rings_online : ∀ b : BarId, (s.bar b).ring ≠ [] → s.control.op = .online
  bars : ∀ b : BarId, BarOk s b

/-! ### Starving and retirement (R64, R65, R68, R69) -/

/-- A bar at risk, as R68 words it. -/
def BarAtRisk (s : State) (b : BarId) : Prop :=
  0 < (s.bar b).threshold ∧ (s.bar b).ahead < (s.bar b).threshold ∧
    ∃ p ∈ s.pages, p.state = .started ∧ entry p.bars b = true ∧ entry p.complete b < entry p.expected b

/-- The starve condition was evaluated once on the way from s to t (R68, R69): it holds in t exactly while t is ONLINE
with a bar at risk, SLOWDOWN and the STARVE report follow a change, and nothing follows where it stayed. -/
structure StarveJudged (s t : State) : Prop where
  holds_iff : t.store.starve = true ↔ t.control.op = .online ∧ ∃ x, BarAtRisk t x
  stays : t.store.starve = s.store.starve → t.store.slowdown = s.store.slowdown ∧ t.reports = s.reports
  enters : s.store.starve = false → t.store.starve = true → t.store.slowdown = true ∧
    ∃ x, BarAtRisk t x ∧ (∀ y, y < x → ¬ BarAtRisk t y) ∧ t.reports =
      { queue := postTo s.motion.pos .starve (.starve true (some x)) s.reports.queue, attention := true }
  leaves : s.store.starve = true → t.store.starve = false → t.store.slowdown = false ∧ t.reports =
    { queue := postTo s.motion.pos .starve (.starve false none) s.reports.queue, attention := true }

/-- A record without its taken mark. -/
def Stripe.untaken (st : Stripe) : Stripe := { st with taken := false }

/-- A bar's ring was judged for retirement on the way from s to t (R64, R65): the stripes due in t are marked, a marked
FILLING record is withdrawn and the next slot steps back to its slot, and marked records leave from the head. Loads
begun meanwhile may have taken stripes. -/
structure RetirementJudged (s t : State) (b : BarId) : Prop where
  ring : (t.bar b).ring.map Stripe.untaken =
    ((((s.bar b).ring.map fun st => { st with retired := st.retired || retirementDue t b st }).filter fun st =>
      !(decide (st.state = .filling) && st.retired)).dropWhile (·.retired)).map Stripe.untaken
  next_slot : (t.bar b).nextSlot =
    match (s.bar b).ring.find? fun st => decide (st.state = .filling) && (st.retired || retirementDue t b st) with
    | some st => some st.slot
    | none => (s.bar b).nextSlot

/-! ### The tables (R1, R11, R14, R111, R117, R120) -/

/-- What an accepted defect list satisfies for a head with M nozzles (R14). -/
structure DefectsOk (M : Nat) (ds : List Defect) : Prop where
  length_le : ds.length ≤ 32
  below : ∀ d ∈ ds, d.dead < M ∧ ∀ h, d.helper = some h → h < M
  dead_once : (ds.map (·.dead)).Nodup
  helper_live : ∀ d ∈ ds, ∀ h, d.helper = some h → isDead ds h = false
  helper_once : ds.Pairwise fun x y => ∀ h, x.helper = some h → y.helper ≠ some h

/-- What a waveform table satisfies (R111). -/
structure WaveformOk (steps : List WaveStep) : Prop where
  length_le : steps.length ≤ 16
  durations : ∀ st ∈ steps, 1 ≤ st.duration ∧ st.duration ≤ 4095
  reaches : steps ≠ [] → ∃ st ∈ steps, st.window = 1

/-- Every table and setting is within its ranges. -/
structure TablesOk (s : State) : Prop where
  heads : ∀ (p : PortId) (h : Head), entry s.geometry.heads p = some h →
    h.origin ≤ 4095 ∧ h.offsetA ≤ 1099511627775 ∧ h.offsetB ≤ 1099511627775
  defects : ∀ (p : PortId) (h : Head), entry s.geometry.heads p = some h →
    DefectsOk h.size.count (entry s.geometry.defects p)
  defects_none : ∀ p : PortId, entry s.geometry.heads p = none → entry s.geometry.defects p = []
  masks : ∀ (b : BarId) (i : Fin 3) (m : Mask), entry (entry s.geometry.masks b) i = some m →
    1 ≤ m.columns.length ∧ m.columns.length ≤ 64
  waveforms : ∀ b : BarId, WaveformOk (entry s.drives.waveforms b)
  scales : ∀ b : BarId, 50 ≤ entry s.drives.scales b ∧ entry s.drives.scales b ≤ 150
  caps : ∀ b : BarId, 1 ≤ (entry s.control.guard.caps b).val

end Sys2Proof.Machine
end

