-- ==== Sys2Proof/WellFormed.lean ====
section
/-! DEFINITION. Which commands the surroundings can send: a frame's body has a length its envelope can carry, a bad
frame is bad, an unknown code is in no index, and the order of rows names no row twice. -/

namespace Sys2Proof

/-- The order of rows names each row at most once. -/
def Outside.wf (env : Outside) : Bool := decide env.order.Nodup

/-- A parameter block fits a request frame, whose body is the code and the block (R145). -/
def paramsFit (params : List Byte) : Bool := decide (params.length + 1 ≤ 300)

/-- The well-formed commands. -/
def Instr.wf : Instr → Bool
  | .powerOnReset _ _ _ => true
  | .encoderChange _ _ env => env.wf
  | .assemblyEnd _ rowA rowB _ => rowA || rowB
  | .linkGrant _ => true
  | .loadCompletion _ _ => true
  | .loadNoAnswer _ => true
  | .lateAnswer _ _ => true
  | .playCompletion _ => true
  | .triggerEdge _ env => env.wf
  | .badFrame kind length rest =>
    match Frame.judge kind length.toNat rest with
    | .bad .length => rest.isEmpty
    | .bad _ => true
    | .good _ => false
    | .unfinished => false
  | .frameTimeout => true
  | .unknownRequest code params => !requestCodes.contains code && paramsFit params
  | .replySent => true
  | .trialRevert => true
  | .setLinkRate ps => paramsFit ps
  | .sync ps => paramsFit ps
  | .goOnline ps => paramsFit ps
  | .probeAnswer _ _ env => env.wf
  | .probeTimeout _ => true
  | .goOffline ps => paramsFit ps
  | .clear ps => paramsFit ps
  | .drainComplete => true
  | .defineHead ps => paramsFit ps
  | .loadStitchMask ps => paramsFit ps
  | .loadDefectList ps => paramsFit ps
  | .setMotion ps => paramsFit ps
  | .readPosition ps => paramsFit ps
  | .openPage ps => paramsFit ps
  | .abortPage ps env => paramsFit ps && env.wf
  | .releasePage ps => paramsFit ps
  | .pageStatus ps => paramsFit ps
  | .setRingSizes ps => paramsFit ps
  | .setStarveThreshold ps => paramsFit ps
  | .stripeChecksum ps env => paramsFit ps && env.wf
  | .checksumReadbackEnd _ => true
  | .readMemoryErrors ps => paramsFit ps
  | .stripePiece body => Frame.lengthInRange .data body.length
  | .loadWaveform ps => paramsFit ps
  | .setDriveScale ps => paramsFit ps
  | .setGuard ps => paramsFit ps
  | .releaseGuard ps => paramsFit ps
  | .readGuard ps => paramsFit ps
  | .headStatus ps => paramsFit ps
  | .queryAnswer _ _ => true
  | .queryNoAnswer _ => true
  | .clearHeadFault ps => paramsFit ps
  | .resetAnswer _ _ => true
  | .resetTimeout _ => true
  | .fetchReport ps => paramsFit ps
  | .startMark _ => true

end Sys2Proof
end

