-- ==== Sys2Proof/Certificates/Slice0/Obligations.lean ====
section
/-! DEFINITION. The statements of this model: what every command does, what it leaves alone, and what every step
keeps. -/

open Sys2Proof Sys2Proof.Machine

/-! ### The queue of commands, steps and reset -/

/-- A step runs the command at the front of the queue on the state with the queue's rest; with no command waiting the
part idles (the queue and the idle step are the model's: log entry 1). -/
def Obligations.StepRunsFrontCommand : Prop :=
  ∀ (c : Instr) (rest : List Instr) (s : State),
    step { s with pending := c :: rest } = exec c { s with pending := rest } ∧ (s.pending = [] → step s = .next s)

/-- Every step answers a next state, and takes from the queue of commands only the one at its front. The model's
choices make it so: an idle step on an empty queue (log entry 1), nothing done by a command whose event cannot occur (log
entry 2), and a queue that POWER_ON_RESET leaves (log entry 27). -/
def Obligations.EveryStepAnswersNext : Prop :=
  ∀ s : State, ∃ t, step s = .next t ∧ t.pending = s.pending.tail

/-- Power-on reset from any state: every block at the values R156 gathers, image memory not written (R52). That the
commands still waiting stay is the model's choice (log entry 27), and so is that damaged words stay damaged (log
entry 5). -/
def Obligations.PowerOnResetLeaves : Prop :=
  ∀ (encA encB trigger : Bool) (s : State), ∃ t, exec (.powerOnReset encA encB trigger) s = .next t ∧
    t.control.op = .setup ∧ t.control.motionSet = false ∧ t.control.guard.ceiling = 255 ∧
    (∀ b : BarId, (entry t.control.guard.caps b).val = 3) ∧ t.control.guard.mapLock = false ∧
    t.control.guard.waveformLock = false ∧ t.control.guard.releaseLock = false ∧
    (∀ p : PortId, entry t.geometry.heads p = none ∧ entry t.geometry.defects p = []) ∧
    (∀ (b : BarId) (i : Fin 3), entry (entry t.geometry.masks b) i = none) ∧
    (∀ b : BarId, entry t.geometry.changeovers b = none) ∧
    t.motion = { phaseA := encA, phaseB := encB, triggerLevel := trigger, pos := 0, hwm := 0, direction := .none,
                 encoderErrors := 0, lastTrigger := 0, lockoutEnd := 0, pitch := 65536, delay := 1, gap := 1,
                 triggerEdge := .rising, encoderSense := .normal } ∧
    t.pages = [] ∧
    (∀ b : BarId, t.bar b = { capacity := 0, nextSlot := none, ring := [], cursor := none, ahead := 0,
                              threshold := 0 }) ∧
    t.store.starve = false ∧ t.store.slowdown = false ∧ t.store.capture = none ∧ t.store.corrected = 0 ∧
    t.store.uncorrected = 0 ∧ t.store.memory = s.store.memory ∧ t.store.damage = s.store.damage ∧
    (∀ r : RowId, t.row r = none) ∧
    (∀ b : BarId, entry t.drives.waveforms b = [] ∧ entry t.drives.scales b = 100) ∧
    (∀ p : PortId, t.port p = { state := .off, cause := .none, last := none, warm := false, link := none,
                                waiting := [] }) ∧
    t.reports = { queue := [], attention := false } ∧
    t.link.receiver = none ∧ t.link.rate = .r1250 ∧ t.link.trialOpen = false ∧ t.link.switch = none ∧
    t.link.replies = [] ∧ t.link.sending = none ∧ t.link.busy = none ∧ t.pending = s.pending

/-- The state right after reset meets every condition of Safety.lean. -/
def Obligations.ConditionsHoldAtReset : Prop :=
  MotionOk State.reset ∧ PagesOk State.reset ∧ ReportsOk State.reset ∧ MemoryOk State.reset ∧ LinkOk State.reset ∧
    OperatingOk State.reset ∧ RowsOk State.reset ∧ StoreOk State.reset ∧ TablesOk State.reset

/-! ### What every step keeps -/

/-- Every step keeps the ranges of the Motion Unit, and POS at or below HWM (R20, R23, R33). -/
def Obligations.StepsKeepMotionOk : Prop :=
  ∀ s t : State, MotionOk s → step s = .next t → MotionOk t

/-- Every step keeps the page queue at most 8 long, its ids distinct, its OPEN pages behind those that were started,
and successive triggers a lockout apart (R32, R35); and it keeps every record's accounts (R38 to R45): the lines fired
and dropped of a STARTED page are those its rows have decided, and those fired, dropped and abandoned of a DONE page
make up N lines at every row. -/
def Obligations.StepsKeepPagesOk : Prop :=
  ∀ s t : State, OperatingOk s → MotionOk s → RowsOk s → PagesOk s → step s = .next t → PagesOk t

/-- Every step keeps the report queue within its places, its kinds and subjects distinct, and ATTENTION with it (R137,
R140, R144). -/
def Obligations.StepsKeepReportsOk : Prop :=
  ∀ s t : State, ReportsOk s → step s = .next t → ReportsOk t

/-- Every step keeps image memory and the list of damaged words in their canonical forms. -/
def Obligations.StepsKeepMemoryOk : Prop :=
  ∀ s t : State, MemoryOk s → step s = .next t → MemoryOk t

/-- Every step keeps the reply queue at most 32 long, with one place exactly while a request is in progress (R149). -/
def Obligations.StepsKeepLinkOk : Prop :=
  ∀ s t : State, LinkOk s → step s = .next t → LinkOk t

/-- Every step keeps the operating state in agreement with the request in progress, the starve condition, SLOWDOWN,
the page queue and the row channels (R69, R76, R97, R149, R155). -/
def Obligations.StepsKeepOperatingOk : Prop :=
  ∀ s t : State, OperatingOk s → step s = .next t → OperatingOk t

/-- Every step keeps every row channel in agreement with its port and its page (R76, R77, R83, R95, R126): a working
row's cursor names a line of a STARTED page of its bar, and its fire position is that line's and lies above HWM (R25,
R78). -/
def Obligations.StepsKeepRowsOk : Prop :=
  ∀ s t : State, OperatingOk s → MotionOk s → PagesOk s → RowsOk s → step s = .next t → RowsOk t

/-- Every step keeps the rings, the stripe cursors and the ahead counts in order (R53, R55, R56, R59, R66): a ring
holds its stripes in page-queue order and then in ascending index, no two alike, each in a slot of its own within the
bar's run, and at most the newest is FILLING. -/
def Obligations.StepsKeepStoreOk : Prop :=
  ∀ s t : State, OperatingOk s → PagesOk s → StoreOk s → step s = .next t → StoreOk t

/-- Every step keeps every table and setting within its ranges (R1, R11, R14, R111, R117, R120). -/
def Obligations.StepsKeepTablesOk : Prop :=
  ∀ s t : State, TablesOk s → step s = .next t → TablesOk t

/-! ### Rules over all commands -/

/-- The command is POWER_ON_RESET. -/
def isPowerOnReset (c : Instr) : Prop := ∃ a b g, c = .powerOnReset a b g

/-- No command but RELEASE GUARD and power-on reset loosens a field of the guard record (R121). -/
def Obligations.GuardOnlyTightens : Prop :=
  ∀ (c : Instr) (s t : State), ¬ isPowerOnReset c → (∀ ps, c ≠ .releaseGuard ps) → exec c s = .next t →
    t.control.guard.ceiling.toNat ≤ s.control.guard.ceiling.toNat ∧
    (∀ b : BarId, entry t.control.guard.caps b ≤ entry s.control.guard.caps b) ∧
    (s.control.guard.mapLock = true → t.control.guard.mapLock = true) ∧
    (s.control.guard.waveformLock = true → t.control.guard.waveformLock = true) ∧
    (s.control.guard.releaseLock = true → t.control.guard.releaseLock = true)

/-- Outside SETUP no command but power-on reset changes a head definition, a stitch mask, a waveform table, a motion
setting, the motion set flag or a ring capacity (R19, R28, R54, R111). -/
def Obligations.TablesFixedOutsideSetup : Prop :=
  ∀ (c : Instr) (s t : State), ¬ isPowerOnReset c → s.control.op ≠ .setup → exec c s = .next t →
    t.geometry.heads = s.geometry.heads ∧ t.geometry.masks = s.geometry.masks ∧
    t.drives.waveforms = s.drives.waveforms ∧ t.motion.pitch = s.motion.pitch ∧ t.motion.delay = s.motion.delay ∧
    t.motion.gap = s.motion.gap ∧ t.motion.triggerEdge = s.motion.triggerEdge ∧
    t.motion.encoderSense = s.motion.encoderSense ∧ t.control.motionSet = s.control.motionSet ∧
    ∀ b : BarId, (t.bar b).capacity = (s.bar b).capacity

/-- Only a stripe piece writes image memory, and only a stripe piece makes a damaged word correct (R52, R70): after
any other command every byte reads as before, and a word that showed damage still shows some. -/
def Obligations.OnlyPiecesWriteImageMemory : Prop :=
  ∀ (c : Instr) (s t : State), (∀ body, c ≠ .stripePiece body) → exec c s = .next t →
    (∀ a, Memory.read t.store.memory a = Memory.read s.store.memory a) ∧
    ∀ w, (damageOf s.store.damage w).isSome = true → (damageOf t.store.damage w).isSome = true

/-! ### The host link (section 10) -/

/-- What the receiver does with the bytes between good frames (R148). A start mark opens a frame while it hunts and is
a byte of the frame otherwise; the 1 ms limit puts it back to hunting; a bad frame puts it back to hunting, draws one
BAD FRAME reply with its reason and echo if the reply queue has room (R149), and has no other effect. An answer of a
head that answers no exchange changes nothing (R128). -/
def Obligations.ReceiverOutcomes : Prop :=
  ∀ (kind : FrameKind) (length : BitVec 16) (rest : List Byte) (reason : BadReason) (p : PortId) (late : HeadAnswer)
    (s : State),
    (s.link.receiver = none →
      exec (.startMark kind) s = .next { s with link := { s.link with receiver := some kind } }) ∧
    (s.link.receiver ≠ none → exec (.startMark kind) s = .next s) ∧
    exec .frameTimeout s = .next { s with link := { s.link with receiver := none } } ∧
    exec (.lateAnswer p late) s = .next s ∧
    (canReceive s.link kind = true → Frame.judge kind length.toNat rest = .bad reason →
      exec (.badFrame kind length rest) s = .next
        (let hunting := { s with link := { s.link with receiver := none } }
         let echo : Byte := if kind = .data then 0xFF else if reason = .length then 0 else rest.headD 0
         if s.link.replies.length < 32 then
           replied { status := .badFrame, echo := echo, fields := [badFrameReason reason] } hunting
         else hunting))

/-- Reading the frame that carries a command gives the command back, for every well-formed command that a good frame
carries (R145, R146, R148, R150; the operands that the surroundings contribute are none in what the decoder reads:
log entry 29). -/
def Obligations.DecodeOfEncodeFrame : Prop :=
  ∀ (c : Instr) (bytes : List Byte), c.wf = true →
    (∀ ps env, c = .abortPage ps env ∨ c = .stripeChecksum ps env → env = { order := [], upsets := [], fetched := 0 }) →
    encodeFrame c = some bytes → decodeFrame bytes = some c

/-- Entries of the reply queue (R149). A request or a stripe piece that completes while a request is in progress draws
BUSY and has no other effect than closing a trial (R152); where the reply queue is full it draws nothing (that a trial
closes even then is the model's reading, log entry 12). The end of a request's work fills its place with its reply; no
other entry changes, no request is in progress, and the transmitter begins the head entry if it now can (at once, which
is the model's choice: log entry 14). Requests stand here without what the surroundings may contribute to ABORT PAGE and
STRIPE CHECKSUM. -/
def Obligations.ReplyQueueEntries : Prop :=
  (∀ (code : Byte) (params body : List Byte) (s : State),
    params.length + 1 ≤ 300 → 10 ≤ body.length → body.length ≤ 8202 →
    (Receives .request s → s.link.busy.isSome = true →
      exec (requestOf code params) s =
        .next (replied { status := .busy, echo := code, fields := [] } (heard s))) ∧
    (Receives .data s → s.link.busy.isSome = true →
      exec (.stripePiece body) s = .next (replied { status := .busy, echo := 0xFF, fields := [] } (heard s))) ∧
    (canReceive s.link .request = true → 32 ≤ s.link.replies.length →
      exec (requestOf code params) s = .next (heard s)) ∧
    (canReceive s.link .data = true → 32 ≤ s.link.replies.length → exec (.stripePiece body) s = .next (heard s))) ∧
  ∀ (st : Status) (fields : List Byte) (front back : List ReplyEntry) (echo : Byte) (s : State),
    s.link.replies = front ++ .place echo :: back → front.all ReplyEntry.isReady = true →
    finishWork st fields s =
      { s with
        link := { s.link with
          replies := front ++ .ready { status := st, echo := echo, fields := fields } :: back
          busy := none
          sending := if s.link.sending = none then some s.link.rate else s.link.sending } }

/-- The head reply leaves at the rate at which it was begun; the next ready reply is begun at once, at the rate then in
force (R149; the moment is the model's choice, log entry 14). A pending switch is made once the reply of its SET LINK
RATE has been sent with every reply that stood behind it, a place among them (log entry 13): the rate is the new one,
the receiver hunts and the trial opens (R151). -/
def Obligations.ReplySentAndRateSwitch : Prop :=
  ∀ (rate : LinkRate) (r : Reply) (rest : List ReplyEntry) (s : State),
    s.link.sending = some rate → s.link.replies = .ready r :: rest →
    ∃ t, exec .replySent s = .next t ∧ { t with link := s.link } = s ∧
      t.link.sent = some { rate := rate, bytes := Frame.build 0xE1 (r.status.code :: r.echo :: r.fields) } ∧
      t.link.replies = rest ∧ t.link.busy = s.link.busy ∧
      t.link.sending = (if headReady rest = true then some t.link.rate else none) ∧
      (s.link.switch = none → t.link.rate = s.link.rate ∧ t.link.receiver = s.link.receiver ∧
        t.link.trialOpen = s.link.trialOpen ∧ t.link.switch = none) ∧
      (∀ new n, s.link.switch = some { rate := new, wait := .own (n + 2) } →
        t.link.switch = some { rate := new, wait := .own (n + 1) } ∧ t.link.rate = s.link.rate) ∧
      (∀ new, s.link.switch = some { rate := new, wait := .own 1 } → rest ≠ [] →
        t.link.switch = some { rate := new, wait := .behind rest.length } ∧ t.link.rate = s.link.rate) ∧
      (∀ new n, s.link.switch = some { rate := new, wait := .behind (n + 2) } →
        t.link.switch = some { rate := new, wait := .behind (n + 1) } ∧ t.link.rate = s.link.rate) ∧
      (∀ new, (s.link.switch = some { rate := new, wait := .own 1 } ∧ rest = []) ∨
          s.link.switch = some { rate := new, wait := .behind 1 } →
        t.link.rate = new ∧ t.link.receiver = none ∧ t.link.trialOpen = true ∧ t.link.switch = none)

/-- SET LINK RATE with code 0, 1 or 2 is answered OK with the code; a code other than that of the rate in force leaves
a switch pending in place of any earlier one, to be made after its reply; the code of the rate in force leaves none
(R151). When the trial's timer runs out with the trial open, the rate in force becomes 0, the receiver hunts, the
trial closes, LINK REVERTED is posted, and a reply being sent goes on; with the trial closed nothing changes (R152). -/
def Obligations.RateSetAndReverted : Prop :=
  ∀ (code : Byte) (rate : LinkRate) (s : State),
    (Takes .request s → rate.code = code →
      exec (.setLinkRate [code]) s = .next
        (answered 0x10 .ok [code]
          { s with
            link := { s.link with
              switch := if rate = s.link.rate then none
                else some { rate := rate, wait := .own (s.link.replies.length + 1) } } })) ∧
    (s.link.trialOpen = true →
      exec .trialRevert s = .next
        { s with
          link := { s.link with rate := .r1250, receiver := none, trialOpen := false }
          reports :=
            { queue := postTo s.motion.pos .linkReverted .none s.reports.queue
              attention := true } }) ∧
    (s.link.trialOpen = false → exec .trialRevert s = .next s)

/-- The requests that only read are answered OK with what they read, and change nothing else: SYNC (R153), READ
POSITION (R34), READ GUARD (R124), READ MEMORY ERRORS with KEEP (R73), PAGE STATUS with QUEUE (R49) and with RECORD
(R48; the order of the stripe counts is log entry 33, T and S of a page aborted while OPEN log entry 34). A code outside
the request index is answered UNKNOWN REQUEST (R150). -/
def Obligations.ReadingRequestsAnswer : Prop :=
  ∀ s : State, Takes .request s →
    exec (.sync []) s = .next (answered 0x11 .ok [s.link.rate.code] s) ∧
    exec (.readPosition []) s = .next
      (answered 0x41 .ok
        (leBytes 6 s.motion.pos ++ leBytes 6 s.motion.hwm ++ [s.motion.direction.code] ++
          leBytes 6 s.motion.lastTrigger ++ leBytes 7 s.motion.lockoutEnd ++ leBytes 2 s.motion.encoderErrors ++
          [if s.store.starve then 1 else 0]) s) ∧
    exec (.readGuard []) s = .next
      (answered 0x74 .ok
        (s.control.guard.bytes ++
          (allBars.map fun b =>
            leBytes 1 (entry s.drives.waveforms b).length ++ leBytes 2 (playLength (entry s.drives.waveforms b)) ++
              leBytes 2 (entry s.drives.scales b)).flatten) s) ∧
    exec (.readMemoryErrors [0]) s = .next
      (answered 0x63 .ok
        ((match s.store.capture with
          | none => [0, 0, 0, 0, 0, 0, 0, 0, 0, 0, 0, 0, 0]
          | some c =>
            [1, (match c.source with | .row r => BitVec.ofNat 8 r.val | .readback => 0xFF), BitVec.ofNat 8 c.bar.val] ++
              leBytes 2 c.slot ++ leBytes 2 c.page ++ leBytes 2 c.stripe ++ leBytes 1 c.place ++ leBytes 1 c.word ++
              [0, 0]) ++
          leBytes 4 s.store.corrected ++ leBytes 2 s.store.uncorrected) s) ∧
    exec (.pageStatus [1]) s = .next
      (answered 0x53 .ok
        (leBytes 1 s.pages.length ++ (s.pages.map fun p => leBytes 2 p.id ++ [p.state.code]).flatten) s) ∧
    (∀ (front back : List Page) (p : Page), s.pages = front ++ p :: back → p.id < 65536 →
      (∀ q ∈ front, q.id ≠ p.id) →
      exec (.pageStatus (0 :: leBytes 2 p.id)) s = .next
        (answered 0x53 .ok
          (leBytes 2 p.id ++
            [BitVec.ofNat 8 front.length, match p.state with | .opened => 0 | .started => 1 | .done => 2] ++
            leBytes 2 p.length ++
            [BitVec.ofNat 8 ((allBars.filter fun b => entry p.bars b).map fun b => 2 ^ b.val).sum,
              BitVec.ofNat 8 p.rows, BitVec.ofNat 8 p.rowsFinished] ++
            leBytes 6 (p.trigger.getD 0) ++ leBytes 7 (p.start.getD 0) ++
            (allBars.map fun b => leBytes 2 (entry p.expected b) ++ leBytes 2 (entry p.complete b)).flatten ++
            [BitVec.ofNat 8 ((if p.flags.underrun then 1 else 0) + (if p.flags.dropped then 2 else 0) +
                (if p.flags.memory then 4 else 0) + if p.flags.aborted then 8 else 0),
              match p.abortMark with | .notAborted => 0 | .abortedOpen => 1 | .abortedStarted => 2] ++
            leBytes 4 p.fired ++ leBytes 4 p.blank ++ leBytes 4 p.dropped.overspeed ++ leBytes 4 p.dropped.lateData ++
            leBytes 4 p.dropped.transfer ++ leBytes 4 p.dropped.headFault ++ leBytes 4 p.abandoned) s)) ∧
    ∀ (code : Byte) (params : List Byte), code ∉ requestCodes → params.length + 1 ≤ 300 →
      exec (.unknownRequest code params) s = .next (answered code .unknownRequest [] s)

/-! ### Operating states (section 11) -/

/-- GO ONLINE taken in SETUP (R155, R157). With items 1 to 6 passed the part is STARTING and the first defined port's
link carries a probe (R132); an item that fails is named in the BAD CONFIG reply and nothing changes. Items are judged
in order: no port defined, layout, masks, waveforms, ring capacities, motion set. The layout of a bar passes when its
first head stands at column 0, the origins of consecutive heads rise, each pair meets or overlaps by at most 64 columns,
and the last head ends at or below column 4096 (item 2); its masks pass when the slot of every pair that overlaps holds a
mask as wide as the overlap (item 3). -/
def Obligations.GoOnlineTaken : Prop :=
  (∀ (g : Geometry) (b : BarId),
    (hasHeads g b = true ↔ ∃ p : PortId, barOf p = b ∧ (entry g.heads p).isSome = true) ∧
    (layoutOk g b = true ↔
      (∀ (p : PortId) (h : Head), barOf p = b → entry g.heads p = some h →
        ((∀ q : PortId, barOf q = b → q < p → entry g.heads q = none) → h.origin = 0) ∧
        ((∀ q : PortId, barOf q = b → p < q → entry g.heads q = none) → h.origin + h.size.count ≤ 4096)) ∧
      ∀ x y hx hy, barOf x = b → Consecutive g x y hx hy →
        hx.origin < hy.origin ∧ hy.origin ≤ hx.origin + hx.size.count ∧ hx.origin + hx.size.count ≤ hy.origin + 64) ∧
    (masksOk g b = true ↔ ∀ x y hx hy, barOf x = b → Consecutive g x y hx hy → hy.origin < hx.origin + hx.size.count →
      ∃ (i : Fin 3) (m : Mask), i.val = headsBelow g x ∧ entry (entry g.masks b) i = some m ∧
        hy.origin + m.columns.length = hx.origin + hx.size.count)) ∧
  ∀ s : State, Takes .request s → s.control.op = .setup →
    (∀ (p : PortId) (h : Head), configFailure s = none → entry s.geometry.heads p = some h →
      (∀ q : PortId, q < p → entry s.geometry.heads q = none) →
      exec (.goOnline []) s = .next
        (undertaken 0x20 (.goOnline p)
          { s with
            control := { s.control with op := .starting }
            ports := put s.ports p { s.port p with
              link := some { header := { kind := .probe, letter := .A, nozzles := h.size.count, tag := 0,
                                         parity := false }, codes := [], speed := h.speed } } })) ∧
    (∀ item place, configFailure s = some (item, place) →
      exec (.goOnline []) s =
        .next (answered 0x20 .badConfig [BitVec.ofNat 8 item, BitVec.ofNat 8 place] s)) ∧
    ((∀ p : PortId, entry s.geometry.heads p = none) → configFailure s = some (1, 255)) ∧
    ((∃ p : PortId, (entry s.geometry.heads p).isSome = true) →
      (∀ b : BarId, layoutOk s.geometry b = false → (∀ x : BarId, x < b → layoutOk s.geometry x = true) →
        configFailure s = some (2, b.val)) ∧
      ((∀ b : BarId, layoutOk s.geometry b = true) →
        (∀ b : BarId, masksOk s.geometry b = false → (∀ x : BarId, x < b → masksOk s.geometry x = true) →
          configFailure s = some (3, b.val)) ∧
        ((∀ b : BarId, masksOk s.geometry b = true) →
          (∀ b : BarId, hasHeads s.geometry b = true → entry s.drives.waveforms b = [] →
            (∀ x : BarId, x < b → hasHeads s.geometry x = true → entry s.drives.waveforms x ≠ []) →
            configFailure s = some (4, b.val)) ∧
          ((∀ b : BarId, hasHeads s.geometry b = true → entry s.drives.waveforms b ≠ []) →
            (∀ b : BarId, hasHeads s.geometry b = true → (s.bar b).capacity < 2 →
              (∀ x : BarId, x < b → hasHeads s.geometry x = true → 2 ≤ (s.bar x).capacity) →
              configFailure s = some (5, b.val)) ∧
            ((∀ b : BarId, hasHeads s.geometry b = true → 2 ≤ (s.bar b).capacity) →
              configFailure s = if s.control.motionSet then none else some (6, 255))))))

/-- A GO ONLINE probe's outcome (R132, R157 item 7, R158). Answered ready, the port is READY and the next defined port
is probed, or after the last the part is ONLINE with its positions 0 and fresh row channels; otherwise the port is
FAULT with the cause of the outcome, the part is back in SETUP, and the reply names the port. An answer whose tag echo
is not that of a probe is discarded. -/
def Obligations.GoOnlineProbeOutcome : Prop :=
  ∀ (p : PortId) (st : BriefStatus) (env : Outside) (ex : Exchange) (s : State),
    s.link.busy = some (.goOnline p) → (s.port p).link = some ex → ex.header.kind = .probe →
    ((st.letter ≠ .A ∨ st.tag ≠ 0) → exec (.probeAnswer p st env) s = .next (upset env.upsets s)) ∧
    (st.letter = .A → st.tag = 0 → ∃ t, exec (.probeAnswer p st env) s = .next t ∧
      (t.port p).last = some st ∧ (t.port p).warm = st.warning ∧ (t.port p).waiting = (s.port p).waiting ∧
      t.reports = (if st.warning = true ∧ (s.port p).warm = false then
        { queue := postTo s.motion.pos (.headWarm p) (.temperature st.temperature.val) s.reports.queue
          attention := true } else s.reports) ∧
      t.pending = s.pending ∧ t.geometry = s.geometry ∧ t.pages = s.pages ∧
      t.store = (upset env.upsets s).store ∧ t.drives = s.drives ∧ t.control.guard = s.control.guard ∧
      t.control.motionSet = s.control.motionSet ∧
      (st.fault = false → st.ready = true → (t.port p).state = .ready ∧ (t.port p).cause = .none ∧
        (∀ (q : PortId) (h : Head), p < q → entry s.geometry.heads q = some h →
          (∀ x : PortId, p < x → x < q → entry s.geometry.heads x = none) →
          t.control.op = s.control.op ∧ t.motion = s.motion ∧ t.rows = s.rows ∧
          t.link = { s.link with busy := some (.goOnline q) } ∧
          (t.port q).link = some { header := { kind := .probe, letter := .A, nozzles := h.size.count, tag := 0,
                                               parity := false }, codes := [], speed := h.speed }) ∧
        ((∀ q : PortId, p < q → entry s.geometry.heads q = none) →
          t.control.op = .online ∧
          t.link = (finishWork .ok
            [BitVec.ofNat 8 (allRows.filter fun r => (entry s.geometry.heads (portOf r)).isSome).length,
              BitVec.ofNat 8 (((allBars.filter fun b => hasHeads s.geometry b).map fun b => 2 ^ b.val).sum)] s).link ∧
          t.motion = { s.motion with pos := 0, hwm := 0, direction := .none, encoderErrors := 0, lastTrigger := 0,
                                     lockoutEnd := 0 } ∧
          (∀ r : RowId, t.row r = if (entry s.geometry.heads (portOf r)).isSome then
            some { cursor := none, fire := none, latch := .empty, drive := .rest, errors := 0 } else none) ∧
          (t.port p).link = none)) ∧
      (st.fault = true ∨ st.ready = false → (t.port p).state = .fault ∧
        (t.port p).cause = (if st.fault then .headReported else .notReady) ∧ (t.port p).link = none ∧
        t.control.op = .setup ∧ t.motion = s.motion ∧ t.rows = s.rows ∧
        t.link = (finishWork .badConfig [7, BitVec.ofNat 8 p.val] s).link)) ∧
    exec (.probeTimeout p) s = .next
      (finishWork .badConfig [7, BitVec.ofNat 8 p.val]
        { s with
          control := { s.control with op := .setup }
          ports := put s.ports p { s.port p with link := none, state := .fault, cause := .noAnswer } })

/-- GO OFFLINE or CLEAR taken while ONLINE makes the part DRAINING and runs the teardown: the starve condition is left,
every record removed, every row wound down, every changeover closed, every ring emptied; tables, settings, image
memory, counts, positions and port records are kept (R18, R51, R75, R97, R159). DRAINING ends once every drive is at
REST: the row channels are removed, CLEAR has emptied its records, and the reply carries the number of records that
were not DONE; while a drive is PLAYING nothing changes. -/
def Obligations.DrainingBeginsAndEnds : Prop :=
  (∀ (c : Instr) (code : Byte) (clear : Bool) (s : State), Takes .request s → s.control.op = .online →
    (c = .goOffline [] ∧ code = 0x21 ∧ clear = false ∨ c = .clear [] ∧ code = 0x22 ∧ clear = true) →
    ∃ t, exec c s = .next t ∧
      t.link = (undertaken code (.drain clear (s.pages.filter fun p => p.state ≠ .done).length) s).link ∧
      t.control = { s.control with op := .draining } ∧ t.pages = [] ∧ t.motion = s.motion ∧ t.drives = s.drives ∧
      t.pending = s.pending ∧
      (∀ r : RowId, t.row r = (s.row r).map fun row => { row with cursor := none, fire := none, latch := .empty }) ∧
      (∀ p : PortId, t.port p = { s.port p with
        link := if (carriedLoad (s.port p).link).isSome then none else (s.port p).link
        waiting := (s.port p).waiting.filter fun q => q = .query }) ∧
      t.geometry.heads = s.geometry.heads ∧ t.geometry.masks = s.geometry.masks ∧
      t.geometry.defects = s.geometry.defects ∧ (∀ b : BarId, entry t.geometry.changeovers b = none) ∧
      (∀ b : BarId, t.bar b = { s.bar b with
        ring := [], cursor := none, ahead := 0
        nextSlot := if (s.bar b).capacity = 0 then none
          else some (((allBars.filter fun x => x < b).map fun x => (s.bar x).capacity).sum) }) ∧
      t.store.memory = s.store.memory ∧ t.store.damage = s.store.damage ∧ t.store.capture = s.store.capture ∧
      t.store.corrected = s.store.corrected ∧ t.store.uncorrected = s.store.uncorrected ∧
      t.store.starve = false ∧
      (s.store.starve = true → t.store.slowdown = false ∧
        t.reports = { queue := postTo s.motion.pos .starve (.starve false none) s.reports.queue, attention := true }) ∧
      (s.store.starve = false → t.store.slowdown = s.store.slowdown ∧ t.reports = s.reports)) ∧
  ∀ (clear : Bool) (count : Nat) (s : State), s.link.busy = some (.drain clear count) →
    ((∀ r row, s.row r = some row → row.drive = .rest) →
      exec .drainComplete s = .next
        (finishWork .ok [BitVec.ofNat 8 count]
          { s with
            control := { s.control with op := .setup }
            rows := Vector.replicate 32 none
            reports := if clear then { queue := [], attention := false } else s.reports
            store := if clear then { s.store with capture := none, corrected := 0, uncorrected := 0 }
              else s.store })) ∧
    ((∃ r row, s.row r = some row ∧ row.drive ≠ .rest) → exec .drainComplete s = .next s)

/-- CLEAR taken in SETUP empties the report queue, which deasserts ATTENTION, empties the capture record, sets both
counts to 0, and leaves every other field as it stands; the reply is OK with a count of 0 (R160). READ MEMORY ERRORS
with CLEAR answers as with KEEP and then empties the record and the counts (R73). -/
def Obligations.ClearInSetup : Prop :=
  ∀ s : State, Takes .request s →
    (s.control.op = .setup →
      exec (.clear []) s = .next
        (answered 0x22 .ok [0]
          { s with
            reports := { queue := [], attention := false }
            store := { s.store with capture := none, corrected := 0, uncorrected := 0 } })) ∧
    exec (.readMemoryErrors [1]) s = .next
      (answered 0x63 .ok (errorFields s.store)
        { s with store := { s.store with capture := none, corrected := 0, uncorrected := 0 } })

/-! ### Geometry tables (section 1) -/

/-- DEFINE HEAD accepted (R8, R9, R10): with DEFINE the port's record holds the values given and its defect list is
kept only where the port was defined with the same nozzle count; with UNDEFINE the record is undefined and the list
empty. The port is READY or OFF, its cause NONE, its last status empty, its warm flag clear; the reply carries the
bar's figures as just derived. LOAD STITCH MASK accepted (R12, R13): a mask of W columns, W from 1 to 64, replaces the
contents of its slot, each column's bit p its owner on phase p; width 0 empties the slot. Nothing else changes. The
defined heads of a bar are those of its defined ports, and the bar is as wide as its last head reaches (R5, R6). -/
def Obligations.HeadsAndMasksLoaded : Prop :=
  (∀ (g : Geometry) (b : BarId),
    (definedHeads g b).length = (allPorts.filter fun p => decide (barOf p = b) && (entry g.heads p).isSome).length ∧
    (∀ (p : PortId) (h : Head), (p, h) ∈ definedHeads g b ↔ barOf p = b ∧ entry g.heads p = some h) ∧
    (∀ (p : PortId) (h : Head), barOf p = b → entry g.heads p = some h →
      (∀ q : PortId, barOf q = b → p < q → entry g.heads q = none) → barWidth g b = h.origin + h.size.count) ∧
    ((∀ p : PortId, barOf p = b → entry g.heads p = none) → barWidth g b = 0)) ∧
  (∀ (ps : List Byte) (p : PortId) (s : State), Takes .request s → s.control.op = .setup →
    s.control.guard.mapLock = false → (readHeadParams ps).port = p.val →
    ((readHeadParams ps).use = 1 → ps.length = 19 →
      ∀ (size : HeadSize) (speed : PortSpeed), (readHeadParams ps).nozzles = size.count →
        (readHeadParams ps).origin ≤ 4095 → (readHeadParams ps).offsetA ≤ 1099511627775 →
        (readHeadParams ps).offsetB ≤ 1099511627775 →
        (readHeadParams ps).speed = (match speed with | .fast => 0 | .slow => 1) →
        exec (.defineHead ps) s = .next
          (let g := { s.geometry with
             heads := put s.geometry.heads p (some
               { size := size, origin := (readHeadParams ps).origin, offsetA := (readHeadParams ps).offsetA,
                 offsetB := (readHeadParams ps).offsetB, speed := speed })
             defects := if (entry s.geometry.heads p).map (·.size) = some size then s.geometry.defects
               else put s.geometry.defects p [] }
           answered 0x30 .ok
             ([BitVec.ofNat 8 (barOf p).val, BitVec.ofNat 8 (definedHeads g (barOf p)).length] ++
               leBytes 2 (barWidth g (barOf p)) ++ leBytes 2 ((barWidth g (barOf p) + 3) / 4))
             { s with
               geometry := g
               ports := put s.ports p { s.port p with state := .ready, cause := .none, last := none, warm := false } })) ∧
    ((readHeadParams ps).use = 0 → ps.length = 2 →
      exec (.defineHead ps) s = .next
        (let g := { s.geometry with
           heads := put s.geometry.heads p none
           defects := put s.geometry.defects p [] }
         answered 0x30 .ok
           ([BitVec.ofNat 8 (barOf p).val, BitVec.ofNat 8 (definedHeads g (barOf p)).length] ++
             leBytes 2 (barWidth g (barOf p)) ++ leBytes 2 ((barWidth g (barOf p) + 3) / 4))
           { s with
             geometry := g
             ports := put s.ports p { s.port p with state := .off, cause := .none, last := none, warm := false } }))) ∧
  ∀ (b : BarId) (i : Fin 3) (columns : List (BitVec 16)) (s : State), Takes .request s → s.control.op = .setup →
    s.control.guard.mapLock = false → columns.length ≤ 64 →
    exec (.loadStitchMask ([BitVec.ofNat 8 b.val, BitVec.ofNat 8 i.val, BitVec.ofNat 8 columns.length] ++
        (columns.map fun w => leBytes 2 w.toNat).flatten)) s = .next
      (answered 0x31 .ok [BitVec.ofNat 8 b.val, BitVec.ofNat 8 i.val, BitVec.ofNat 8 columns.length]
        { s with
          geometry := { s.geometry with
            masks := put s.geometry.masks b (put (entry s.geometry.masks b) i
              (if columns = [] then none else some { columns := columns })) } })

/-- The checks of LOAD DEFECT LIST on the entries pass exactly the lists that R14 describes (R15 checks 4 to 10). -/
def Obligations.DefectChecksAreR14 : Prop :=
  ∀ (M : Nat) (ds : List Defect), DefectsOk M ds ↔ ds.length ≤ 32 ∧ entriesFailure M [] ds ds = none

/-- An accepted LOAD DEFECT LIST (R15, R16). With no row of the bar at work the list simply takes the old one's place;
ONLINE with a row of the bar at work a changeover opens that holds the old list up to the leading line, which the
reply names. With a changeover open for the bar it is refused with WRONG STATE, and with MAP LOCK set with GUARDED. -/
def Obligations.DefectListTaken : Prop :=
  ∀ (ps : List Byte) (p : PortId) (h : Head) (ds : List Defect) (s : State), Takes .request s → ps.length ≤ 299 →
    2 ≤ ps.length → fieldAt ps 0 1 = p.val → fieldAt ps 1 1 = ds.length →
    (s.control.guard.mapLock = true → exec (.loadDefectList ps) s = .next (answered 0x32 .guarded [] s)) ∧
    (s.control.guard.mapLock = false → s.control.op = .online →
      (entry s.geometry.changeovers (barOf p)).isSome = true →
      exec (.loadDefectList ps) s = .next (answered 0x32 .wrongState [] s)) ∧
    (s.control.guard.mapLock = false → entry s.geometry.heads p = some h →
      readDefects ds.length (ps.drop 2) = some ds → DefectsOk h.size.count ds →
      (s.control.op ≠ .online ∨ (s.control.op = .online ∧ entry s.geometry.changeovers (barOf p) = none ∧
          ∀ r row, rowBar r = barOf p → s.row r = some row → row.cursor = none) →
        exec (.loadDefectList ps) s = .next
          (answered 0x32 .ok [BitVec.ofNat 8 p.val, BitVec.ofNat 8 ds.length, 0, 0, 0, 0, 0]
            { s with geometry := { s.geometry with defects := put s.geometry.defects p ds } })) ∧
      (∀ page line start, s.control.op = .online → entry s.geometry.changeovers (barOf p) = none →
        leadingLine s (barOf p) = some (page, line, start) →
        exec (.loadDefectList ps) s = .next
          (answered 0x32 .ok
            ([BitVec.ofNat 8 p.val, BitVec.ofNat 8 ds.length, 1] ++ leBytes 2 page ++ leBytes 2 line)
            { s with
              geometry := { s.geometry with
                defects := put s.geometry.defects p ds
                changeovers := put s.geometry.changeovers (barOf p) (some
                  { port := p, held := entry s.geometry.defects p, page := page, line := line, start := start }) } })))

/-! ### Motion (section 2) -/

/-- The class of a change of the encoder lines (R21): one place on in the forward cycle is a forward tick, one place
back a reverse tick, two places an illegal transition; sense SWAPPED exchanges forward and reverse. Changes that raise
no arrival: outside ONLINE only the phase follows the lines; ONLINE an illegal transition counts (R22), a reverse tick
lowers POS to no less than 0 (R24), a forward tick below HWM or at the top of the range does not move HWM (R23).
Nothing else changes but the words that the surroundings damage (the model's operand: log entry 5). -/
def Obligations.TicksWithoutNewGround : Prop :=
  (∀ (m : Motion) (a b : Bool),
    let turn := (quadrant a b + 4 - quadrant m.phaseA m.phaseB) % 4
    (turn = 0 → classify m a b = none) ∧ (turn = 2 → classify m a b = some .illegal) ∧
    (turn = 1 → classify m a b = some (if m.encoderSense = .normal then .forward else .reverse)) ∧
    (turn = 3 → classify m a b = some (if m.encoderSense = .normal then .reverse else .forward))) ∧
  ∀ (a b : Bool) (env : Outside) (s : State),
    let moved (f : Motion → Motion) : State :=
      (upset env.upsets s).updateMotion fun m => f { m with phaseA := a, phaseB := b }
    (s.control.op ≠ .online ∨ classify s.motion a b = none →
      exec (.encoderChange a b env) s = .next (moved fun m => m)) ∧
    (s.control.op = .online →
      (classify s.motion a b = some .illegal → exec (.encoderChange a b env) s = .next
        (moved fun m => { m with encoderErrors := if m.encoderErrors < 65535 then m.encoderErrors + 1
                                   else m.encoderErrors })) ∧
      (classify s.motion a b = some .reverse → exec (.encoderChange a b env) s = .next
        (moved fun m => { m with pos := if m.pos = 0 then 0 else m.pos - 1, direction := .reverse })) ∧
      (classify s.motion a b = some .forward → s.motion.pos < s.motion.hwm →
        exec (.encoderChange a b env) s = .next
          (moved fun m => { m with pos := m.pos + 1, direction := .forward })) ∧
      (classify s.motion a b = some .forward → s.motion.pos = s.motion.hwm → s.motion.hwm = 281474976710655 →
        exec (.encoderChange a b env) s = .next (moved fun m => { m with direction := .forward })))

/-- A new-ground advance (R23, R25): POS and HWM rise by one, and only rows whose fire position is the new HWM are
touched; the Control Unit, the tables, the host link, image memory and the states of the ports are left alone, and
every page keeps its id, length, bars, trigger and start. -/
def Obligations.NewGroundAdvance : Prop :=
  ∀ (a b : Bool) (env : Outside) (s : State), s.control.op = .online → classify s.motion a b = some .forward →
    s.motion.pos = s.motion.hwm → s.motion.hwm < 281474976710655 →
    ∃ t, exec (.encoderChange a b env) s = .next t ∧
      t.motion = { s.motion with phaseA := a, phaseB := b, pos := s.motion.pos + 1, hwm := s.motion.hwm + 1,
                                 direction := .forward } ∧
      (∀ r : RowId, (s.row r).bind (·.fire) ≠ some (s.motion.hwm + 1) → t.row r = s.row r) ∧ RowsOnly s t ∧
      (t.pages.map fun p => (p.id, p.length, p.bars, p.rows, p.trigger, p.start)) =
        s.pages.map fun p => (p.id, p.length, p.bars, p.rows, p.trigger, p.start)

/-- The fire decision of a row that alone receives the arrival (R85 to R88, R40, R91, R92). The first condition of R85
that holds gives the outcome; it is counted against the page; a fired line starts a play of the bar's waveform with the
latch's codes, and posts DRIVE CLAMPED with the level requested where the ceiling clamps a step (R119); a dropped line
sets the page's DROPPED flag and posts LINE DROPPED with its cause and line, the drive untouched. The cursor moves to
the next line, or to line 0 of the next STARTED page of the bar, or goes absent. The finish of the last row makes the
page DONE and posts PAGE DONE (R42). The bar's stripes are judged for retirement, and every bar's of a page that is DONE
(R64, R65); a changeover of the bar closes once no row of it stands at or before the last held line (R18). Where a
page ends, the order of its bars is log entry 35. -/
def Obligations.FireDecisionOutcomes : Prop :=
  ∀ (a b : Bool) (env : Outside) (r : RowId) (row : Row) (c : Cursor) (front back : List Page) (p : Page) (s : State),
    s.control.op = .online → classify s.motion a b = some .forward → s.motion.pos = s.motion.hwm →
    s.motion.hwm < 281474976710655 → s.row r = some row → row.cursor = some c →
    row.fire = some (s.motion.hwm + 1) →
    (∀ q : RowId, q ≠ r → (s.row q).bind (·.fire) ≠ some (s.motion.hwm + 1)) →
    (s.pages.map (·.id)).Nodup → s.pages = front ++ p :: back → p.id = c.page → p.state = .started →
    (∀ x : BarId, ∀ st ∈ (s.bar x).ring.dropLast, st.state = .complete) →
    let bar := rowBar r
    let table := entry s.drives.waveforms bar
    let scale := entry s.drives.scales bar
    let ceiling := s.control.guard.ceiling
    (∀ o, judgeLine (decide ((s.port (portOf r)).state = .fault)) row = some o →
      ∃ (t : State) (p' : Page) (row' : Row) (later : List (Topic × Detail)),
        exec (.encoderChange a b env) s = .next t ∧ findPage t.pages c.page = some p' ∧
        t.row r = some row' ∧ row'.errors = row.errors ∧
        (p'.fired, p'.blank, p'.dropped, p'.abandoned, p'.flags.dropped, p'.flags.aborted, p'.abortMark) =
          (match o with
          | .fired list => (p.fired + 1, if list.blank then p.blank + 1 else p.blank, p.dropped, p.abandoned,
              p.flags.dropped, p.flags.aborted, p.abortMark)
          | .dropped cause => (p.fired, p.blank, p.dropped.add cause, p.abandoned, true, p.flags.aborted,
              p.abortMark)) ∧
        row'.drive =
          (match o with
          | .fired list => .playing
            { steps := table.map fun st =>
                { output := outputLevel st.level scale ceiling, duration := st.duration, window := st.window }
              codes := list.codes }
          | .dropped _ => row.drive) ∧
        (c.line + 1 < p.length →
          row'.cursor = some { page := c.page, line := c.line + 1 } ∧
          row'.fire = some (firePosition (p.start.getD 0) (rowOffset s.geometry r) (c.line + 1) s.motion.pitch) ∧
          (p'.state, p'.rowsFinished) = (.started, p.rowsFinished)) ∧
        (p.length ≤ c.line + 1 →
          (match back.find? fun q => q.state = .started && entry q.bars bar with
          | some q => row'.cursor = some { page := q.id, line := 0 } ∧
              row'.fire = some (firePosition (q.start.getD 0) (rowOffset s.geometry r) 0 s.motion.pitch)
          | none => row'.cursor = none ∧ row'.fire = none) ∧
          (p'.state, p'.rowsFinished) =
            (if p.rowsFinished + 1 = p.rows then .done else .started, p.rowsFinished + 1)) ∧
        t.reports.queue =
          ((match o with
            | .fired _ => ((levelRequested table scale ceiling).toList.map fun n => (.driveClamped bar, .level n))
            | .dropped cause => [(.lineDropped c.page r, .drop cause c.line)]) ++ later).foldl
            (fun q e => postTo (s.motion.hwm + 1) e.1 e.2 q) s.reports.queue ∧
        (∀ e ∈ later, e.1 = .starve ∨ e.1 = .memoryError ∨ (∃ id, e.1 = .underrun id bar) ∨
          e = (.pageDone c.page, .page p'.flags p'.abortMark)) ∧
        ((.pageDone c.page, .page p'.flags p'.abortMark) ∈ later ↔ p'.state = .done) ∧
        (∀ x : BarId, (x = bar ∨ p'.state = .done ∧ entry p.bars x = true) → RetirementJudged s t x) ∧
        (∀ x : BarId, x ≠ bar → (p'.state ≠ .done ∨ entry p.bars x = false) → (t.bar x).ring = (s.bar x).ring) ∧
        (∀ x : BarId, x = bar ∨ p'.state = .done → (t.bar x).cursor = cursorOf t.pages (t.bar x) x) ∧
        (p'.state = .done → (t.store.starve = true ↔ ∃ x, BarAtRisk t x)) ∧
        (∀ co, entry s.geometry.changeovers bar = some co →
          ((∃ q line, rowBar q = bar ∧ ((t.row q).bind (·.cursor)) = some line ∧
            (pageStart t.pages line.page < co.start ∨
              pageStart t.pages line.page = co.start ∧ line.line ≤ co.line)) →
            entry t.geometry.changeovers bar = some co) ∧
          ((∀ q line, rowBar q = bar → ((t.row q).bind (·.cursor)) = some line →
            co.start < pageStart t.pages line.page ∨
              pageStart t.pages line.page = co.start ∧ co.line < line.line) →
            entry t.geometry.changeovers bar = none)) ∧
        (∀ x : BarId, x ≠ bar ∨ entry s.geometry.changeovers x = none →
          entry t.geometry.changeovers x = entry s.geometry.changeovers x)) ∧
    ((s.port (portOf r)).state = .fault → judgeLine true row = some (.dropped .headFault)) ∧
    (∀ play, row.drive = .playing play → judgeLine false row = some (.dropped .overspeed)) ∧
    (row.drive = .rest →
      (∀ k list, row.latch = .ready k list → judgeLine false row = some (.fired list)) ∧
      (∀ k load, row.latch = .loading k load → judgeLine false row = some (.dropped .lateData)) ∧
      (∀ k, row.latch = .failed k → judgeLine false row = some (.dropped .transfer))) ∧
    (∀ (u : State) (x : BarId) (st : Stripe) (q : Page), findPage u.pages st.page = some q →
      (q.state = .opened → retirementDue u x st = false) ∧ (q.state = .done → retirementDue u x st = true) ∧
      (q.state = .started → (retirementDue u x st = true ↔ st.state = .complete ∧
        ∀ k line, rowBar k = x → ((u.row k).bind (·.cursor)) = some line →
          if line.page = st.page then 64 * st.index + st.rows - 1 < line.line
          else q.start.getD 0 < pageStart u.pages line.page)))

/-- SET MOTION accepted (R27): the five settings given are held and the motion set flag is set; the reply echoes the
settings; no other field changes. ONLINE it is refused with WRONG STATE. -/
def Obligations.SetMotionAccepted : Prop :=
  ∀ (pitch delay gap : Nat) (edge : TriggerSense) (sense : EncoderSense) (s : State), Takes .request s →
    65536 ≤ pitch → pitch ≤ 4294967295 → 1 ≤ delay → delay ≤ 16777215 → 1 ≤ gap → gap ≤ 16777215 →
    let ps : List Byte := leBytes 4 pitch ++ leBytes 4 delay ++ leBytes 4 gap ++
      ([if edge = .rising then 0 else 1, if sense = .normal then 0 else 1] : List Byte)
    (s.control.op = .setup → exec (.setMotion ps) s = .next
      (answered 0x40 .ok ps
        { s with
          motion := { s.motion with pitch := pitch, delay := delay, gap := gap, triggerEdge := edge,
                                    encoderSense := sense }
          control := { s.control with motionSet := true } })) ∧
    (s.control.op = .online → exec (.setMotion ps) s = .next (answered 0x40 .wrongState [] s))

/-- A change of the TRIGGER level that starts no page (R29, R30, R31): outside ONLINE and for an edge of the other
sense only the level follows; a judged edge in the replay region or before the lockout end is rejected with its
report; one that finds no OPEN page is missed, sets the last trigger and a lockout of the gap alone, and is
reported. -/
def Obligations.TriggerEdgesWithoutPage : Prop :=
  ∀ (level : Bool) (env : Outside) (s : State),
    let followed : State := (upset env.upsets s).updateMotion fun m => { m with triggerLevel := level }
    let edge : Prop := (s.motion.triggerEdge = .rising ∧ s.motion.triggerLevel = false ∧ level = true) ∨
      (s.motion.triggerEdge = .falling ∧ s.motion.triggerLevel = true ∧ level = false)
    (s.control.op ≠ .online ∨ ¬ edge → exec (.triggerEdge level env) s = .next followed) ∧
    (s.control.op = .online → edge →
      (s.motion.pos < s.motion.hwm → exec (.triggerEdge level env) s = .next
        { followed with reports :=
          { queue := postTo s.motion.pos (.triggerRejected .reverse) (.position s.motion.pos) s.reports.queue
            attention := true } }) ∧
      (s.motion.pos = s.motion.hwm → s.motion.hwm < s.motion.lockoutEnd →
        exec (.triggerEdge level env) s = .next
          { followed with reports :=
            { queue := postTo s.motion.pos (.triggerRejected .lockout) (.position s.motion.pos) s.reports.queue
              attention := true } }) ∧
      (s.motion.pos = s.motion.hwm → s.motion.lockoutEnd ≤ s.motion.hwm → (∀ p ∈ s.pages, p.state ≠ .opened) →
        exec (.triggerEdge level env) s = .next
          { followed with
            motion := { followed.motion with lastTrigger := s.motion.hwm, lockoutEnd := s.motion.hwm + s.motion.gap }
            reports :=
              { queue := postTo s.motion.pos .triggerMissed (.position s.motion.hwm) s.reports.queue
                attention := true } }))

/-- An accepted trigger (R32, R39, R93). The oldest OPEN page becomes STARTED with T = HWM and S = T + D, its counts
unchanged; the lockout covers ceil(N × L / 65536) + G; every idle row of its bars takes up its line 0 with the fire
position of R78, loading if its port is READY; rows at work and rows of other bars are not moved. -/
def Obligations.TriggerAccepted : Prop :=
  ∀ (level : Bool) (env : Outside) (front back : List Page) (p : Page) (s : State), s.control.op = .online →
    ((s.motion.triggerEdge = .rising ∧ s.motion.triggerLevel = false ∧ level = true) ∨
      (s.motion.triggerEdge = .falling ∧ s.motion.triggerLevel = true ∧ level = false)) →
    s.motion.pos = s.motion.hwm → s.motion.lockoutEnd ≤ s.motion.hwm → s.pages = front ++ p :: back →
    (∀ q ∈ front, q.state ≠ .opened) → p.state = .opened → (s.pages.map (·.id)).Nodup →
    ∃ t p', exec (.triggerEdge level env) s = .next t ∧ findPage t.pages p.id = some p' ∧
      p'.state = .started ∧ p'.trigger = some s.motion.hwm ∧ p'.start = some (s.motion.hwm + s.motion.delay) ∧
      (p'.length, p'.bars, p'.rows, p'.rowsFinished, p'.fired, p'.blank, p'.dropped, p'.abandoned) =
        (p.length, p.bars, p.rows, p.rowsFinished, p.fired, p.blank, p.dropped, p.abandoned) ∧
      (t.pages.map fun q => (q.id, q.state)) =
        s.pages.map (fun q => (q.id, if q.id = p.id then .started else q.state)) ∧
      t.motion = { s.motion with
        triggerLevel := level, lastTrigger := s.motion.hwm
        lockoutEnd := s.motion.hwm + ((p.length * s.motion.pitch + 65535) / 65536 + s.motion.gap) } ∧
      (∀ r row, s.row r = some row → (row.cursor = none ∧ entry p.bars (rowBar r) = true →
          ∃ row', t.row r = some row' ∧ row'.cursor = some { page := p.id, line := 0 } ∧
            row'.fire = some (s.motion.hwm + s.motion.delay + (rowOffset s.geometry r + 32768) / 65536) ∧
            row'.drive = row.drive ∧ row'.errors = row.errors ∧
            ((s.port (portOf r)).state = .ready → ∃ ctx, row'.latch = .loading 0 (.assembling ctx)) ∧
            ((s.port (portOf r)).state ≠ .ready → row'.latch = row.latch)) ∧
        (row.cursor.isSome = true ∨ entry p.bars (rowBar r) = false → t.row r = some row)) ∧
      RowsOnly s t ∧ t.ports = s.ports

/-! ### Pages (section 3) -/

/-- OPEN PAGE accepted (R37, R38): a fresh OPEN record at the tail, the cursors set anew by R56, and the reply's
figures. A full queue refuses it with QUEUE FULL, and outside ONLINE it is refused with WRONG STATE. R56 puts a bar's
cursor on the oldest page that is not DONE, names the bar and lacks stripes for it, at its count of complete stripes and
the rows received of the FILLING record for them, or 0; with no such page it is absent. -/
def Obligations.OpenPageAccepted : Prop :=
  (∀ (pages : List Page) (bs : BarStore) (b : BarId),
    let lacks (p : Page) : Prop := p.state ≠ .done ∧ entry p.bars b = true ∧ entry p.complete b < entry p.expected b
    (∀ front p back, pages = front ++ p :: back → lacks p → (∀ q ∈ front, ¬ lacks q) →
      ∃ row, cursorOf pages bs b = some { page := p.id, index := entry p.complete b, row := row } ∧
        (∀ x older newer, bs.ring = older ++ x :: newer → x.state = .filling → x.released = false → x.page = p.id →
          x.index = entry p.complete b → (∀ y ∈ older, y.state = .complete) → row = x.received) ∧
        ((∀ x ∈ bs.ring, x.state = .filling → x.released = false →
          ¬ (x.page = p.id ∧ x.index = entry p.complete b)) → row = 0)) ∧
    ((∀ p ∈ pages, ¬ lacks p) → cursorOf pages bs b = none)) ∧
  (∀ (s : State) (b : BarId), (refreshCursors s).bar b = { s.bar b with cursor := cursorOf s.pages (s.bar b) b } ∧
    { refreshCursors s with store := s.store } = s) ∧
  ∀ (id n bars : Nat) (s : State), Takes .request s → id < 65536 → 1 ≤ n → n ≤ 32768 → 1 ≤ bars → bars ≤ 15 →
    let ps : List Byte := leBytes 2 id ++ leBytes 2 n ++ leBytes 1 bars
    let named (b : BarId) : Bool := bars.testBit b.val
    (s.control.op ≠ .online → exec (.openPage ps) s = .next (answered 0x50 .wrongState [] s)) ∧
    (s.control.op = .online → (∀ b : BarId, named b = true → hasHeads s.geometry b = true) →
      (∀ p ∈ s.pages, p.id ≠ id) →
      (8 ≤ s.pages.length → exec (.openPage ps) s = .next (answered 0x50 .queueFull [] s)) ∧
      (s.pages.length < 8 →
        let p : Page :=
          { id := id, length := n, bars := Vector.ofFn named
            rows := (allRows.filter fun r => (s.row r).isSome && named (rowBar r)).length
            rowsFinished := 0, state := .opened, trigger := none, start := none
            expected := Vector.ofFn fun b => if named b then (n + 63) / 64 else 0
            complete := Vector.ofFn fun _ => 0
            flags := { underrun := false, dropped := false, memory := false, aborted := false }
            abortMark := .notAborted, fired := 0, blank := 0
            dropped := { overspeed := 0, lateData := 0, transfer := 0, headFault := 0 }, abandoned := 0 }
        exec (.openPage ps) s = .next
          (answered 0x50 .ok
            (leBytes 2 id ++ leBytes 1 (s.pages.length + 1) ++
              leBytes 1 ((s.pages.filter fun q => q.state = .opened).length + 1) ++
              (allBars.map fun b => leBytes 2 (if named b then (n + 63) / 64 else 0)).flatten)
            (refreshCursors { s with pages := s.pages ++ [p] }))))

/-- ABORT PAGE (R43 to R45, R94). A DONE page is answered with its fields as they stand, its lines abandoned among them
(R154; log entry 18). An OPEN or STARTED page becomes DONE with its counts kept and its undecided lines abandoned; rows
on it go to the next STARTED page of their bar or idle, their drives untouched; other rows are not touched; its stripes
are retired and every cursor stands where R56 puts it; the reply carries state, mark and lines abandoned. -/
def Obligations.AbortPageEnds : Prop :=
  ∀ (env : Outside) (front back : List Page) (p : Page) (s : State), Takes .request s → s.control.op = .online →
    (s.pages.map (·.id)).Nodup → s.pages = front ++ p :: back → p.id < 65536 →
    (p.state = .done → exec (.abortPage (leBytes 2 p.id) env) s = .next
      (answered 0x51 .ok ([2, p.abortMark.code] ++ leBytes 4 p.abandoned) (upset env.upsets s))) ∧
    (p.state ≠ .done →
      let left := p.length * p.rows - p.fired - (p.dropped.overspeed + p.dropped.lateData + p.dropped.transfer +
        p.dropped.headFault)
      let mark : AbortMark := if p.state = .opened then .abortedOpen else .abortedStarted
      ∃ t, exec (.abortPage (leBytes 2 p.id) env) s = .next t ∧
        t.link = (answered 0x51 .ok ([2, mark.code] ++ leBytes 4 left) s).link ∧
        findPage t.pages p.id = some { p with
          state := .done, flags := { p.flags with aborted := true }, abortMark := mark, abandoned := left
          rowsFinished := p.rows } ∧
        (t.pages.map fun q => (q.id, q.state)) =
          s.pages.map (fun q => (q.id, if q.id = p.id then .done else q.state)) ∧
        (∀ r row, s.row r = some row →
          ((∀ c, row.cursor = some c → c.page ≠ p.id) → t.row r = some row) ∧
          (∀ c, row.cursor = some c → c.page = p.id → ∃ row', t.row r = some row' ∧ row'.drive = row.drive ∧
            row'.errors = row.errors ∧
            row'.cursor = (back.find? fun q => q.state = .started && entry q.bars (rowBar r)).map fun q =>
              { page := q.id, line := 0 })) ∧
        (∀ b : BarId, entry p.bars b = true → ∀ st ∈ (t.bar b).ring, st.page = p.id → st.retired = true) ∧
        (∀ b : BarId, (t.bar b).cursor = cursorOf t.pages (t.bar b) b) ∧
        t.control = s.control ∧ t.motion = s.motion ∧ t.drives = s.drives ∧ t.pending = s.pending ∧
        t.geometry.heads = s.geometry.heads ∧ t.geometry.masks = s.geometry.masks ∧
        t.geometry.defects = s.geometry.defects ∧ t.store.memory = s.store.memory)

/-- RELEASE PAGE of a DONE page removes its record, marks its stripes released, sets the cursors anew by R56, and
answers with the record's final fields and the number of records still held; a page that is not DONE draws WRONG
STATE (R47). The place in the reply is the record's before it was removed (log entry 17); the order of the stripe counts
is log entry 33, T and S of a page aborted while OPEN log entry 34. -/
def Obligations.ReleasePageRemoves : Prop :=
  ∀ (front back : List Page) (p : Page) (s : State), Takes .request s → s.control.op = .online →
    (s.pages.map (·.id)).Nodup → s.pages = front ++ p :: back → p.id < 65536 →
    (p.state ≠ .done → exec (.releasePage (leBytes 2 p.id)) s = .next (answered 0x52 .wrongState [] s)) ∧
    (p.state = .done → exec (.releasePage (leBytes 2 p.id)) s = .next
      (answered 0x52 .ok (p.bytes front.length ++ leBytes 1 (front.length + back.length))
        (refreshCursors { s with
          pages := front ++ back
          store := { s.store with
            bars := s.store.bars.map fun bs => { bs with
              ring := bs.ring.map fun st => { st with released := st.released || decide (st.page = p.id) } } } })))

/-! ### The Stripe Store (section 4) -/

/-- SET RING SIZES with capacities of 1024 slots at most in all gives each ring its run, empties it, and lowers a
threshold that stands above the new capacity (R53, R54; that the ahead count of an emptied ring is 0 is R66). -/
def Obligations.RingSizesAccepted : Prop :=
  ∀ (sizes : Vector Nat 4) (s : State), Takes .request s → s.control.op = .setup →
    entry sizes 0 + entry sizes 1 + entry sizes 2 + entry sizes 3 ≤ 1024 →
    let first (b : BarId) : Nat := ((allBars.filter fun x => x < b).map fun x => entry sizes x).sum
    exec (.setRingSizes ((allBars.map fun b => leBytes 2 (entry sizes b)).flatten)) s = .next
      (answered 0x60 .ok
        ((allBars.map fun b => leBytes 2 (entry sizes b) ++
          leBytes 2 (if entry sizes b = 0 then 0 else first b) ++
          leBytes 2 (min (s.bar b).threshold (entry sizes b))).flatten)
        { s with store := { s.store with
            bars := Vector.ofFn fun b => { s.bar b with
              capacity := entry sizes b
              nextSlot := if entry sizes b = 0 then none else some (first b)
              ring := []
              ahead := 0
              threshold := min (s.bar b).threshold (entry sizes b) } } })

/-- SET STARVE THRESHOLD holds the threshold limited to the capacity and then evaluates the starve condition (R67,
R68, R69): where the condition comes to hold, SLOWDOWN is asserted and STARVE posted ON with the lowest-numbered bar
at risk; where it ceases, SLOWDOWN is deasserted and STARVE posted OFF; otherwise nothing more changes. -/
def Obligations.StarveThresholdEvaluated : Prop :=
  ∀ (b : BarId) (n : Nat) (s : State), Takes .request s → n < 65536 → (s.bar b).capacity < 65536 →
    let held := min n (s.bar b).capacity
    let set : State := s.updateBar b fun bs => { bs with threshold := held }
    let reply (t : State) : Host.Outcome State Fault Refusal :=
      .next (answered 0x61 .ok (leBytes 1 b.val ++ leBytes 2 held) t)
    let c : Instr := .setStarveThreshold (leBytes 1 b.val ++ leBytes 2 n)
    (∀ x : BarId, s.control.op = .online → s.store.starve = false → BarAtRisk set x →
      (∀ y : BarId, y < x → ¬ BarAtRisk set y) → exec c s = reply
        { set with
          store := { set.store with starve := true, slowdown := true }
          reports :=
            { queue := postTo s.motion.pos .starve (.starve true (some x)) s.reports.queue, attention := true } }) ∧
    ((s.control.op ≠ .online ∨ ∀ x : BarId, ¬ BarAtRisk set x) → s.store.starve = true → exec c s = reply
        { set with
          store := { set.store with starve := false, slowdown := false }
          reports :=
            { queue := postTo s.motion.pos .starve (.starve false none) s.reports.queue, attention := true } }) ∧
    ((s.control.op = .online ∧ ∃ x : BarId, BarAtRisk set x) → s.store.starve = true → exec c s = reply set) ∧
    ((s.control.op ≠ .online ∨ ∀ x : BarId, ¬ BarAtRisk set x) → s.store.starve = false → exec c s = reply set)

/-- A stripe piece that passes every check without being the last of its stripe (R57 to R59, R62). Every row byte lies
at its row place, and no byte of memory outside the row places written changes; the words written have fresh check bits,
and no other word's change (R52). The FILLING record, opened at the tail with the ring's next slot when the piece begins
the stripe, counts the rows and sums the bytes; opening it moves the next slot on, from the last of the bar's run to its
first; the ring's other records are kept, the cursor is set anew and the reply is OK. -/
def Obligations.StripePieceStored : Prop :=
  ∀ (body : List Byte) (b : BarId) (p : Page) (front : List Stripe) (pre : Option Stripe) (s : State), Takes .data s →
    let pc := readPiece body
    let width := rowBytes s.geometry b
    let R := min 64 (p.length - 64 * pc.index)
    let first := ((allBars.filter fun x => x < b).map fun x => (s.bar x).capacity).sum
    let st : Stripe := pre.getD
      { page := pc.page, index := pc.index, rows := R, slot := (s.bar b).nextSlot.getD 0, received := 0,
        state := .filling, sum := 0, taken := false, retired := false, released := false }
    s.control.op = .online → pc.bar = b.val → hasHeads s.geometry b = true → (s.bar b).capacity ≠ 0 →
    width ≤ 1024 → findPage s.pages pc.page = some p → entry p.bars b = true →
    (s.bar b).cursor = some { page := pc.page, index := pc.index, row := pc.firstRow } →
    1 ≤ pc.rowCount → pc.rowCount ≤ 8 → body.length = 10 + pc.rowCount * width → body.length ≤ 8202 →
    pc.firstRow + pc.rowCount < R → pc.final = false →
    (s.bar b).ring = front ++ pre.toList → (∀ y ∈ front, y.state = .complete) →
    (pre = none → pc.firstRow = 0 ∧ front.length < (s.bar b).capacity) →
    (∀ x, pre = some x → x.state = .filling ∧ pc.firstRow ≠ 0) →
    ∃ t, exec (.stripePiece body) s = .next t ∧
      (∀ i j, i < pc.rowCount → j < width →
        Memory.read t.store.memory (byteAddress st.slot (pc.firstRow + i) j) = body.getD (10 + i * width + j) 0) ∧
      (∀ a, (∀ i j, i < pc.rowCount → j < 8 * ((width + 7) / 8) → a ≠ byteAddress st.slot (pc.firstRow + i) j) →
        Memory.read t.store.memory a = Memory.read s.store.memory a) ∧
      (∀ i w, i < pc.rowCount → w < (width + 7) / 8 →
        damageOf t.store.damage (wordAddress st.slot (pc.firstRow + i) w) = none) ∧
      (∀ a, (∀ i w, i < pc.rowCount → w < (width + 7) / 8 → a ≠ wordAddress st.slot (pc.firstRow + i) w) →
        damageOf t.store.damage a = damageOf s.store.damage a) ∧
      (t.bar b).ring = front ++ [{ st with
        received := st.received + pc.rowCount, sum := (st.sum + Frame.byteSum (body.drop 10)) % 65536 }] ∧
      (t.bar b).nextSlot = (if pre = none then
        (s.bar b).nextSlot.map fun n => if n + 1 < first + (s.bar b).capacity then n + 1 else first
        else (s.bar b).nextSlot) ∧
      (t.bar b).ahead = (s.bar b).ahead ∧ (t.bar b).threshold = (s.bar b).threshold ∧
      (t.bar b).capacity = (s.bar b).capacity ∧
      (∀ x : BarId, (t.bar x).cursor = cursorOf t.pages (t.bar x) x ∧
        (x ≠ b → { t.bar x with cursor := none } = { s.bar x with cursor := none })) ∧
      t.link = (answered 0xFF .ok (pieceFields b t) s).link ∧ t.pages = s.pages ∧ t.rows = s.rows ∧
      t.control = s.control ∧ t.geometry = s.geometry ∧ t.motion = s.motion ∧ t.drives = s.drives ∧
      t.ports = s.ports ∧ t.reports = s.reports ∧ t.pending = s.pending

/-- The final piece of a stripe, of a stripe sent as one piece too (R59 to R61). Its rows are stored with fresh check
bits, and no other byte or word changes. Where the running sum is the stripe sum the record is COMPLETE, the page counts
the stripe, the reply is OK, and the starve condition is evaluated; the bar's ahead count rises by one, unless the page is
STARTED and every row of the bar has passed the stripe's last line, where the stripe is retired at once and counts
nothing. Where the sums differ the record is removed, the ring's next slot is its slot, and the reply is STRIPE CHECK. -/
def Obligations.FinalPieceJudged : Prop :=
  ∀ (body : List Byte) (b : BarId) (p : Page) (front : List Stripe) (pre : Option Stripe) (s : State), Takes .data s →
    let pc := readPiece body
    let width := rowBytes s.geometry b
    let R := min 64 (p.length - 64 * pc.index)
    let first := ((allBars.filter fun x => x < b).map fun x => (s.bar x).capacity).sum
    let st : Stripe := pre.getD
      { page := pc.page, index := pc.index, rows := R, slot := (s.bar b).nextSlot.getD 0, received := 0,
        state := .filling, sum := 0, taken := false, retired := false, released := false }
    let ended : Stripe := { st with state := .complete, received := st.received + pc.rowCount, sum := pc.sum }
    let passed : Prop := p.state = .started ∧
      ∀ r line, rowBar r = b → ((s.row r).bind (·.cursor)) = some line →
        if line.page = p.id then 64 * pc.index + R - 1 < line.line else p.start.getD 0 < pageStart s.pages line.page
    s.control.op = .online → pc.bar = b.val → hasHeads s.geometry b = true → (s.bar b).capacity ≠ 0 →
    width ≤ 1024 → findPage s.pages pc.page = some p → entry p.bars b = true → p.state ≠ .done →
    (s.bar b).cursor = some { page := pc.page, index := pc.index, row := pc.firstRow } →
    1 ≤ pc.rowCount → pc.rowCount ≤ 8 → body.length = 10 + pc.rowCount * width → body.length ≤ 8202 →
    pc.firstRow + pc.rowCount = R → pc.final = true →
    (s.bar b).ring = front ++ pre.toList → (∀ y ∈ front, y.state = .complete) →
    (∀ y ∈ front, y.released = false → ¬ (y.page = pc.page ∧ y.index = pc.index)) →
    (pre = none → pc.firstRow = 0 ∧ front.length < (s.bar b).capacity ∧ (s.bar b).nextSlot.isSome = true) →
    (∀ x, pre = some x → pc.firstRow ≠ 0 ∧ x.state = .filling ∧ x.page = pc.page ∧ x.index = pc.index ∧ x.rows = R ∧
      x.retired = false ∧ x.released = false ∧ x.taken = false) →
    ∃ t, exec (.stripePiece body) s = .next t ∧
      (∀ i j, i < pc.rowCount → j < width →
        Memory.read t.store.memory (byteAddress st.slot (pc.firstRow + i) j) = body.getD (10 + i * width + j) 0) ∧
      (∀ a, (∀ i j, i < pc.rowCount → j < 8 * ((width + 7) / 8) → a ≠ byteAddress st.slot (pc.firstRow + i) j) →
        Memory.read t.store.memory a = Memory.read s.store.memory a) ∧
      (∀ i w, i < pc.rowCount → w < (width + 7) / 8 →
        damageOf t.store.damage (wordAddress st.slot (pc.firstRow + i) w) = none) ∧
      (∀ a, (∀ i w, i < pc.rowCount → w < (width + 7) / 8 → a ≠ wordAddress st.slot (pc.firstRow + i) w) →
        damageOf t.store.damage a = damageOf s.store.damage a) ∧
      (t.bar b).threshold = (s.bar b).threshold ∧ (t.bar b).capacity = (s.bar b).capacity ∧
      (∀ x : BarId, (t.bar x).cursor = cursorOf t.pages (t.bar x) x ∧
        (x ≠ b → { t.bar x with cursor := none } = { s.bar x with cursor := none })) ∧
      t.rows = s.rows ∧ t.control = s.control ∧ t.geometry = s.geometry ∧ t.motion = s.motion ∧
      t.drives = s.drives ∧ t.ports = s.ports ∧ t.pending = s.pending ∧
      ((st.sum + Frame.byteSum (body.drop 10)) % 65536 = pc.sum →
        t.link = (answered 0xFF .ok (pieceFields b t) s).link ∧
        t.pages = changePage pc.page
          (fun q => { q with complete := put q.complete b (entry q.complete b + 1) }) s.pages ∧
        (t.bar b).nextSlot = (if pre = none then
          (s.bar b).nextSlot.map fun n => if n + 1 < first + (s.bar b).capacity then n + 1 else first
          else (s.bar b).nextSlot) ∧
        (¬ passed → (t.bar b).ring = front ++ [ended] ∧ (t.bar b).ahead = (s.bar b).ahead + 1) ∧
        (passed → (t.bar b).ring = (front ++ [{ ended with retired := true }]).dropWhile (·.retired) ∧
          (t.bar b).ahead = (s.bar b).ahead) ∧
        StarveJudged s t) ∧
      ((st.sum + Frame.byteSum (body.drop 10)) % 65536 ≠ pc.sum →
        t.link = (answered 0xFF .stripeCheck (pieceFields b t) s).link ∧ t.pages = s.pages ∧
        (t.bar b).ring = front ∧ (t.bar b).nextSlot = some st.slot ∧ (t.bar b).ahead = (s.bar b).ahead ∧
        t.reports = s.reports ∧ t.store.starve = s.store.starve ∧ t.store.slowdown = s.store.slowdown)

/-- STRIPE CHECKSUM and the end of its readback (R74). A COMPLETE, unreleased record is found and its readback becomes
the request in progress; no such record draws NOT FOUND. Where no word of image memory is damaged and nothing has been
read yet, the reply carries the sum of the stripe's row bytes modulo 65536, no uncorrectable words, the stripe's rows
and the RETIRED mark, and nothing but the reply queue changes. -/
def Obligations.ChecksumReadsBack : Prop :=
  (∀ (b : BarId) (page index : Nat) (env : Outside) (s : State), Takes .request s → s.control.op = .online →
    page < 65536 → index < 65536 →
    let c : Instr := .stripeChecksum (leBytes 1 b.val ++ leBytes 2 page ++ leBytes 2 index) env
    let found : Stripe → Bool := fun st =>
      decide (st.page = page) && decide (st.index = index) && !st.released && decide (st.state = .complete)
    ((s.bar b).ring.find? found = none →
      exec c s = .next (answered 0x62 .notFound [] (upset env.upsets s))) ∧
    (∀ st, (s.bar b).ring.find? found = some st → ∃ t rb, exec c s = .next t ∧
      t.link = (undertaken 0x62 (.checksum rb) s).link ∧
      (rb.bar, rb.page, rb.index, rb.rows, rb.slot, rb.rowBytes) =
        (b, st.page, st.index, st.rows, st.slot, rowBytes s.geometry b) ∧
      rb.wordsRead = min env.fetched (st.rows * ((rowBytes s.geometry b + 7) / 8)) ∧
      t.rows = s.rows ∧ t.control = s.control ∧ t.geometry = s.geometry ∧ t.motion = s.motion ∧
      t.drives = s.drives ∧ t.ports = s.ports ∧ t.pending = s.pending ∧ t.store.bars = s.store.bars ∧
      t.store.memory = s.store.memory)) ∧
  (∀ (rb : Readback) (s : State), s.link.busy = some (.checksum rb) → rb.wordsRead = 0 → rb.sum = 0 → rb.bad = 0 →
    rb.rows ≤ 64 → rb.rowBytes ≤ 1024 → s.store.damage = [] →
    exec (.checksumReadbackEnd []) s = .next
      (finishWork .ok
        (leBytes 2 (((List.range rb.rows).map fun r =>
            Frame.byteSum (Memory.readRun s.store.memory (byteAddress rb.slot r 0) rb.rowBytes)).sum % 65536) ++
          [0, 0] ++ leBytes 1 rb.rows ++
          [if readbackRetired rb s then 1 else 0]) s))

/-! ### Waveforms, drives and the guard record (section 7) -/

/-- LOAD WAVEFORM accepted (R112, R113) replaces the bar's table whole and answers with its step count and play
length; SET DRIVE SCALE (R117) holds the scale limited to 50 to 150. Nothing else changes. With WAVEFORM LOCK set a
waveform is refused with GUARDED. -/
def Obligations.WaveformAndScaleSet : Prop :=
  ∀ (b : BarId) (s : State), Takes .request s →
    (∀ steps : List WaveStep, s.control.op = .setup → WaveformOk steps → steps ≠ [] →
      let ps : List Byte := leBytes 1 b.val ++ leBytes 1 steps.length ++
        (steps.map fun st => [st.level] ++ leBytes 2 st.duration ++ leBytes 1 st.window.val).flatten
      (s.control.guard.waveformLock = false → exec (.loadWaveform ps) s = .next
        (answered 0x70 .ok
          (leBytes 1 b.val ++ leBytes 1 steps.length ++ leBytes 2 ((steps.map (·.duration)).sum))
          { s with drives := { s.drives with waveforms := put s.drives.waveforms b steps } })) ∧
      (s.control.guard.waveformLock = true → exec (.loadWaveform ps) s = .next (answered 0x70 .guarded [] s))) ∧
    ∀ n, n < 65536 →
      let held := if n < 50 then 50 else if 150 < n then 150 else n
      exec (.setDriveScale (leBytes 1 b.val ++ leBytes 2 n)) s = .next
        (answered 0x71 .ok (leBytes 1 b.val ++ leBytes 2 held)
          { s with drives := { s.drives with scales := put s.drives.scales b held } })

/-- SET GUARD (R121): a record that loosens no field is held whole and echoed; one that loosens any field is refused
with GUARDED, the reply carrying the record held, and changes nothing. RELEASE GUARD (R123): with RELEASE LOCK set it
is refused with GUARDED; in SETUP it sets every field loosest and empties every waveform table. -/
def Obligations.GuardSetAndReleased : Prop :=
  (∀ (g : Guard) (s : State), Takes .request s → (∀ b : BarId, entry g.caps b ≠ 0) →
    let tighter : Prop := g.ceiling.toNat ≤ s.control.guard.ceiling.toNat ∧
      (∀ b : BarId, entry g.caps b ≤ entry s.control.guard.caps b) ∧
      (s.control.guard.mapLock = true → g.mapLock = true) ∧
      (s.control.guard.waveformLock = true → g.waveformLock = true) ∧
      (s.control.guard.releaseLock = true → g.releaseLock = true)
    (tighter → exec (.setGuard g.bytes) s = .next
      (answered 0x72 .ok g.bytes { s with control := { s.control with guard := g } })) ∧
    (¬ tighter → exec (.setGuard g.bytes) s = .next
      (answered 0x72 .guarded s.control.guard.bytes s))) ∧
  ∀ s : State, Takes .request s →
    (s.control.guard.releaseLock = true → exec (.releaseGuard []) s = .next (answered 0x73 .guarded [] s)) ∧
    (s.control.guard.releaseLock = false → s.control.op = .online →
      exec (.releaseGuard []) s = .next (answered 0x73 .wrongState [] s)) ∧
    (s.control.guard.releaseLock = false → s.control.op = .setup →
      exec (.releaseGuard []) s = .next
        (answered 0x73 .ok [255, 3, 3, 3, 3, 0, 0, 0]
          { s with
            control := { s.control with guard :=
              { ceiling := 255, caps := Vector.replicate 4 3, mapLock := false, waveformLock := false,
                releaseLock := false } }
            drives := { s.drives with waveforms := Vector.replicate 4 [] } }))

/-- The output level of a step (R118): floor((level × s + 50) / 100), limited to 255 and then to the ceiling. At scale
100 and ceiling 255 a level gives itself back, and level 0 gives 0 at every scale; the level requested is the greatest
scaled level among the clamped steps (R119). A step's window connects the nozzles whose code is w or more, and window 0
none (R115); a play drives its steps one after another, each for its duration (R114). PLAY_COMPLETION returns the row's
drive to REST and changes nothing else; at REST, and in a row without a channel, the output carries level 0 and no
nozzle is connected (R89, R116). (The codes and the output stand with the play: log entries 20 and 21.) -/
def Obligations.PlaysDriveAndEnd : Prop :=
  ((∀ (level ceiling : Byte) (scale : Nat),
    outputLevel level scale ceiling ≤ ceiling.toNat ∧
    (scaledLevel level scale ≤ 255 → scaledLevel level scale ≤ ceiling.toNat →
      outputLevel level scale ceiling = (level.toNat * scale + 50) / 100) ∧
    (255 < scaledLevel level scale → ceiling = 255 → outputLevel level scale ceiling = 255) ∧
    (scale ≤ 150 → scaledLevel level scale ≤ 383) ∧
    (clampedByCeiling level scale ceiling = true ↔ ceiling.toNat < min ((level.toNat * scale + 50) / 100) 255) ∧
    (clampedByCeiling level scale ceiling = true → outputLevel level scale ceiling = ceiling.toNat) ∧
    outputLevel level 100 255 = level.toNat ∧ outputLevel 0 scale ceiling = 0) ∧
  (∀ (steps : List WaveStep) (scale : Nat) (ceiling : Byte),
    (levelRequested steps scale ceiling = none ↔ ∀ st ∈ steps, clampedByCeiling st.level scale ceiling = false) ∧
    ∀ n, levelRequested steps scale ceiling = some n ↔
      (∃ st ∈ steps, clampedByCeiling st.level scale ceiling = true ∧ (st.level.toNat * scale + 50) / 100 = n) ∧
      ∀ st ∈ steps, clampedByCeiling st.level scale ceiling = true → (st.level.toNat * scale + 50) / 100 ≤ n) ∧
  (∀ (w : Fin 4) (code : Code), windowConnects w code = true ↔ 1 ≤ w.val ∧ w.val ≤ code.val)) ∧
  (∀ (r : RowId) (row : Row) (s : State), s.row r = some row →
    ∃ t, exec (.playCompletion r) s = .next t ∧
      t = { s with rows := put s.rows r (some { row with drive := .rest }) } ∧
      ∀ u i, t.driveLevel r u = 0 ∧ t.connects r u i = false) ∧
  (∀ (r : RowId) (s : State), s.row r = none →
    exec (.playCompletion r) s = .next s ∧ ∀ u i, s.driveLevel r u = 0 ∧ s.connects r u i = false) ∧
  ∀ (r : RowId) (row : Row) (play : Play) (front back : List PlayStep) (st : PlayStep) (s : State),
    s.row r = some row → row.drive = .playing play →
    (play.steps = front ++ st :: back → ∀ u, (front.map (·.duration)).sum ≤ u →
      u < (front.map (·.duration)).sum + st.duration →
      s.driveLevel r u = st.output ∧
      ∀ i, s.connects r u i = true ↔ 1 ≤ st.window.val ∧ st.window.val ≤ (play.codes.getD i 0).val) ∧
    ∀ u i, (play.steps.map (·.duration)).sum ≤ u → s.driveLevel r u = 0 ∧ s.connects r u i = false

/-! ### Head ports (section 8) -/

/-- The assembly allowance of a row's load ends (R99, R103, R126). Where no word of image memory is damaged, the
context reads the words it still lacks, the code list is handed over, and its shift begins to wait for the link behind
those that wait already, but before a query that begins to wait at the same moment; where both rows end together, row A
waits before row B. Nothing else changes. (Row A's words are read before row B's: log entry 37.) -/
def Obligations.AssemblyEndsInWaiting : Prop :=
  ∀ (p : PortId) (l : Letter) (row : Row) (k : Nat) (ctx : Context) (query : Bool) (ws tail : List Requester)
    (s : State), s.store.damage = [] → s.row (rowOf p l) = some row → row.latch = .loading k (.assembling ctx) →
    (s.port p).waiting = ws ++ tail →
    (tail = [] ∧ (query = true → ws.getLast? ≠ some .query) ∨ tail = [.query] ∧ query = true) →
    (let list : CodeList :=
       match ctx.source with
       | .blank => { codes := List.replicate (ctx.nozzles / 2) 0, blank := true }
       | .data slot =>
         { codes := (List.range (ctx.nozzles / 2)).map fun i =>
             Context.code { ctx with image := ctx.image ++ (ctx.unread.map fun w =>
               Memory.readRun s.store.memory (byteAddress slot ctx.place (8 * w)) 8).flatten }
               (2 * i + if letterOf ctx.row = .A then 0 else 1)
           blank := false }
     exec (.assemblyEnd p (decide (l = .A)) (decide (l = .B)) { query := query, upsets := [] }) s = .next
       { s with
         rows := put s.rows (rowOf p l) (some { row with latch := .loading k (.waiting list) })
         ports := put s.ports p { s.port p with waiting := ws ++ [.shift l] ++ tail } }) ∧
    (∀ (row' : Row) (k' : Nat) (ctx' : Context), l = .A → s.row (rowOf p .B) = some row' →
      row'.latch = .loading k' (.assembling ctx') →
      ∃ t, exec (.assemblyEnd p true true { query := query, upsets := [] }) s = .next t ∧
        (t.port p).waiting = ws ++ [.shift .A, .shift .B] ++ tail)

/-- LINK_GRANT (R126, R127): the free link goes to the requester that has waited longest. A load's shift is sent with
its row letter, nozzle count, line index mod 256, the parity of its codes and its codes, and its latch stays LOADING; a
query is a header alone with row letter A. Nothing else changes; a link that is not free, or for which nobody waits, is
not granted. On the lanes the header takes 8 clocks and the codes follow in order, two to a clock, so that a load takes
264 or 136 clocks. (The header's bits are not laid out: log entry 41.) -/
def Obligations.LinkGranted : Prop :=
  ∀ (p : PortId) (s : State),
    (∀ (l : Letter) (rest : List Requester) (row : Row) (k : Nat) (list : CodeList),
      (s.port p).link = none → (s.port p).waiting = .shift l :: rest → s.row (rowOf p l) = some row →
      row.latch = .loading k (.waiting list) →
      exec (.linkGrant p) s = .next
        { s with
          rows := put s.rows (rowOf p l) (some { row with latch := .loading k (.shifting list) })
          ports := put s.ports p { s.port p with
            link := some
              { header := { kind := .load, letter := l, nozzles := headNozzles s.geometry p,
                            tag := BitVec.ofNat 8 (k % 256)
                            parity := decide ((list.codes.map fun c => c.val % 2 + c.val / 2).sum % 2 = 1) }
                codes := list.codes
                speed := headSpeed s.geometry p }
            waiting := rest } }) ∧
    (∀ rest : List Requester, (s.port p).link = none → (s.port p).waiting = .query :: rest →
      exec (.linkGrant p) s = .next
        { s with
          ports := put s.ports p { s.port p with
            link := some { header := { kind := .query, letter := .A, nozzles := headNozzles s.geometry p, tag := 0,
                                       parity := false }, codes := [], speed := headSpeed s.geometry p }
            waiting := rest } }) ∧
    ((s.port p).link.isSome = true ∨ (s.port p).waiting = [] → exec (.linkGrant p) s = .next s) ∧
    ∀ ex : Exchange,
      (∀ n : Fin 8, ex.lanes[n.val]? = some (.header ex.header n)) ∧
      (∀ i, 2 * i + 1 < ex.codes.length →
        ex.lanes[8 + i]? = some (.codes (ex.codes.getD (2 * i) 0) (ex.codes.getD (2 * i + 1) 0))) ∧
      (ex.codes = [] → ex.lanes.length = 8) ∧
      (∀ size : HeadSize, ex.codes.length = size.count / 2 →
        ex.lanes.length = (match size with | .n512 => 136 | .n1024 => 264))

/-- A brief status answers the load on a port's link (R82, R83, R128, R130). With its fault clear the latch becomes
READY where tag and parity echo match, its count 0; otherwise it is EMPTY with the failed mark and the count rises by
one. Short of 16 the port stays as it is; the status becomes the last one, its warning sets the warm flag, and the link
is free. With no load on the link the answer is discarded. -/
def Obligations.LoadCompletes : Prop :=
  ∀ (p : PortId) (st : BriefStatus) (s : State),
    ((∀ ex, (s.port p).link = some ex → ex.header.kind ≠ .load) → exec (.loadCompletion p st) s = .next s) ∧
    ∀ (ex : Exchange) (row : Row) (k : Nat) (list : CodeList),
      (s.port p).link = some ex → ex.header.kind = .load → s.row (rowOf p ex.header.letter) = some row →
      row.latch = .loading k (.shifting list) → st.fault = false →
      let good : Bool := st.letter = ex.header.letter && st.tag = ex.header.tag && st.parityEcho = ex.header.parity
      (good = true ∨ row.errors + 1 < 16) →
      exec (.loadCompletion p st) s = .next
        { s with
          rows := put s.rows (rowOf p ex.header.letter) (some
            (if good = true then { row with latch := .ready k list, errors := 0 }
             else { row with latch := .failed k, errors := row.errors + 1 }))
          ports := put s.ports p { s.port p with last := some st, warm := st.warning, link := none }
          reports := if st.warning = true ∧ (s.port p).warm = false then
              { queue := postTo s.motion.pos (.headWarm p) (.temperature st.temperature.val) s.reports.queue
                attention := true }
            else s.reports }

/-- A READY port enters FAULT (R95, R129): on a load's brief status with the fault set (HEAD REPORTED), on a row's
sixteenth consecutive mismatch (TRANSFER), on a load left unanswered (NO ANSWER). Both rows' latches become EMPTY,
their cursors, fire positions and drives are kept, waiting shifts of loads are withdrawn, the link is free, and HEAD
FAULT is posted with the cause, after the HEAD WARM that a warning posts (R130). A LOAD_NO_ANSWER that meets no load
changes nothing. -/
def Obligations.PortFaults : Prop :=
  (∀ (p : PortId) (s : State), (∀ ex, (s.port p).link = some ex → ex.header.kind ≠ .load) →
    exec (.loadNoAnswer p) s = .next s) ∧
  (∀ (p : PortId) (ex : Exchange) (s : State), (s.port p).state = .ready → (s.port p).link = some ex →
    ex.header.kind = .load →
    ∃ t, exec (.loadNoAnswer p) s = .next t ∧ (t.port p).state = .fault ∧ (t.port p).cause = .noAnswer ∧
      (t.port p).link = none ∧ (t.port p).last = (s.port p).last ∧ (t.port p).warm = (s.port p).warm ∧
      t.reports =
        { queue := postTo s.motion.pos (.headFault p) (.fault .noAnswer) s.reports.queue, attention := true } ∧
      (∀ l : Letter, t.row (rowOf p l) = (s.row (rowOf p l)).map fun row => { row with latch := .empty })) ∧
  ∀ (answer : Option BriefStatus) (cause : FaultCause) (p : PortId) (ex : Exchange) (s : State),
    (s.port p).state = .ready → (s.port p).link = some ex → ex.header.kind = .load → RowsOk s →
    (match answer with
    | some st => st.fault = true ∧ cause = .headReported ∨
        st.fault = false ∧ cause = .transfer ∧
          (∃ row, s.row (rowOf p ex.header.letter) = some row ∧ row.errors = 15) ∧
          (st.letter ≠ ex.header.letter ∨ st.tag ≠ ex.header.tag ∨ st.parityEcho ≠ ex.header.parity)
    | none => cause = .noAnswer) →
    let c : Instr := match answer with | some st => .loadCompletion p st | none => .loadNoAnswer p
    let warned : List Report := match answer with
      | some st => if st.warning = true ∧ (s.port p).warm = false then
          postTo s.motion.pos (.headWarm p) (.temperature st.temperature.val) s.reports.queue else s.reports.queue
      | none => s.reports.queue
    ∃ t, exec c s = .next t ∧ (t.port p).state = .fault ∧ (t.port p).cause = cause ∧ (t.port p).link = none ∧
      (t.port p).last = answer.or (s.port p).last ∧ (t.port p).warm = (answer.map (·.warning)).getD (s.port p).warm ∧
      (t.port p).waiting = (s.port p).waiting.filter (fun q => q = .query) ∧
      t.reports = { queue := postTo s.motion.pos (.headFault p) (.fault cause) warned, attention := true } ∧
      (∀ l : Letter, t.row (rowOf p l) = (s.row (rowOf p l)).map fun row => { row with
        latch := .empty, errors := if cause = .transfer ∧ l = ex.header.letter then 16 else row.errors }) ∧
      (∀ r : RowId, portOf r ≠ p → t.row r = s.row r) ∧ (∀ q : PortId, q ≠ p → t.port q = s.port q) ∧
      t.control = s.control ∧ t.geometry = s.geometry ∧ t.motion = s.motion ∧ t.pages = s.pages ∧
      t.store = s.store ∧ t.drives = s.drives ∧ t.link = s.link ∧ t.pending = s.pending

/-- HEAD STATUS (R133, R134). For a READY or FAULT port the query waits for the link and the request is in progress;
an OFF port draws WRONG STATE. Its answer, with the fault clear or on a port that is not READY, frees the link and is
reported in the reply; a silence or a fault on a READY port faults it, posts HEAD FAULT (R129), and is answered with the
port's fields as they then stand. An answer that meets no query is discarded. The answer's temperature may be any byte
(log entry 38), and bits 5 and 6 of a brief status in the reply are 0 (log entry 40). -/
def Obligations.HeadStatusQueried : Prop :=
  ∀ (p : PortId) (ans : QueryReply) (s : State),
    (Takes .request s → (s.port p).state ≠ .off →
      exec (.headStatus [BitVec.ofNat 8 p.val]) s = .next
        (undertaken 0x80 (.headStatus p)
          { s with ports := put s.ports p { s.port p with waiting := (s.port p).waiting ++ [.query] } })) ∧
    (Takes .request s → (s.port p).state = .off →
      exec (.headStatus [BitVec.ofNat 8 p.val]) s = .next (answered 0x80 .wrongState [] s)) ∧
    (∀ ex, s.link.busy = some (.headStatus p) → (s.port p).link = some ex → ex.header.kind = .query →
      let free : State := { s with ports := put s.ports p { s.port p with link := none } }
      ((ans.fault = false ∨ (s.port p).state ≠ .ready) →
        exec (.queryAnswer p ans) s = .next
          (finishWork .ok
            ([BitVec.ofNat 8 p.val, 1, (s.port p).state.code, (s.port p).cause.code,
                ans.temperature, if ans.ready then 1 else 0, if ans.fault then 1 else 0,
                if (s.port p).warm then 1 else 0] ++
              leBytes 1 (errorsOnline s (rowOf p .A)) ++ leBytes 1 (errorsOnline s (rowOf p .B)) ++
              lastStatusBytes (s.port p).last) free)) ∧
      ((s.port p).state ≠ .ready →
        exec (.queryNoAnswer p) s = .next
          (finishWork .ok
            ([BitVec.ofNat 8 p.val, 0, (s.port p).state.code, (s.port p).cause.code, 0, 0, 0,
                if (s.port p).warm then 1 else 0] ++
              leBytes 1 (errorsOnline s (rowOf p .A)) ++ leBytes 1 (errorsOnline s (rowOf p .B)) ++
              lastStatusBytes (s.port p).last) free)) ∧
      (∀ heard : Option QueryReply, (s.port p).state = .ready → (∀ a, heard = some a → a.fault = true) →
        let c : Instr := match heard with | some a => .queryAnswer p a | none => .queryNoAnswer p
        let cause : FaultCause := match heard with | some _ => .headReported | none => .noAnswer
        ∃ t, exec c s = .next t ∧ (t.port p).state = .fault ∧ (t.port p).cause = cause ∧ (t.port p).link = none ∧
          t.link = (finishWork .ok
            ([BitVec.ofNat 8 p.val] ++
              (match heard with
              | some a => [1, 2, 1, a.temperature, if a.ready then 1 else 0, 1]
              | none => [0, 2, 3, 0, 0, 0]) ++
              [if (s.port p).warm then 1 else 0] ++
              leBytes 1 (errorsOnline s (rowOf p .A)) ++ leBytes 1 (errorsOnline s (rowOf p .B)) ++
              lastStatusBytes (s.port p).last) s).link ∧
          t.reports =
            { queue := postTo s.motion.pos (.headFault p) (.fault cause) s.reports.queue, attention := true } ∧
          (∀ l : Letter, t.row (rowOf p l) = (s.row (rowOf p l)).map fun row => { row with latch := .empty }) ∧
          (∀ r : RowId, portOf r ≠ p → t.row r = s.row r) ∧ (∀ q : PortId, q ≠ p → t.port q = s.port q) ∧
          (t.port p).last = (s.port p).last ∧ (t.port p).warm = (s.port p).warm ∧
          t.pages = s.pages ∧ t.store = s.store ∧ t.control = s.control ∧ t.motion = s.motion ∧
          t.geometry = s.geometry ∧ t.drives = s.drives ∧ t.pending = s.pending)) ∧
    (s.link.busy ≠ some (.headStatus p) →
      exec (.queryAnswer p ans) s = .next s ∧ exec (.queryNoAnswer p) s = .next s)

/-- CLEAR HEAD FAULT begins with a reset (R135): ONLINE on a FAULT port a RESET header with row letter B is sent. Its
answer, whose warning is taken and which is not judged, or its silence, is followed by the recovery probe. That the
answer also becomes the last brief status is R125's "to a load, a probe or a reset" (log entry 22). A port that is not
FAULT draws WRONG STATE. -/
def Obligations.HeadFaultReset : Prop :=
  ∀ (p : PortId) (st : BriefStatus) (s : State),
    let header (kind : HeaderKind) (l : Letter) : Exchange :=
      { header := { kind := kind, letter := l, nozzles := headNozzles s.geometry p, tag := 0, parity := false }
        codes := []
        speed := headSpeed s.geometry p }
    (Takes .request s → s.control.op = .online →
      ((s.port p).state = .fault → exec (.clearHeadFault [BitVec.ofNat 8 p.val]) s = .next
        (undertaken 0x81 (.clearFault p .reset)
          { s with ports := put s.ports p { s.port p with link := some (header .reset .B) } })) ∧
      ((s.port p).state ≠ .fault → exec (.clearHeadFault [BitVec.ofNat 8 p.val]) s = .next
        (answered 0x81 .wrongState [] s))) ∧
    (∀ ex, s.link.busy = some (.clearFault p .reset) → (s.port p).link = some ex → ex.header.kind = .reset →
      exec (.resetAnswer p st) s = .next
        { s with
          link := { s.link with busy := some (.clearFault p .probe) }
          ports := put s.ports p { s.port p with
            last := some st, warm := st.warning, link := some (header .probe .A) }
          reports := if st.warning = true ∧ (s.port p).warm = false then
              { queue := postTo s.motion.pos (.headWarm p) (.temperature st.temperature.val) s.reports.queue
                attention := true }
            else s.reports } ∧
      exec (.resetTimeout p) s = .next
        { s with
          link := { s.link with busy := some (.clearFault p .probe) }
          ports := put s.ports p { s.port p with link := some (header .probe .A) } })

/-- The recovery probe's outcome (R96, R132, R135). Answered ready with the fault clear, the port is READY with cause
NONE, both rows' counts are 0, and each working row begins a load of its line, keeping its cursor and fire position.
Any other outcome leaves the port FAULT with that outcome's cause, and no row changes. The request ends in either
case. (Bits 5 and 6 of the brief status in the reply are 0: log entry 40.) -/
def Obligations.RecoveryProbeOutcome : Prop :=
  ∀ (p : PortId) (st : BriefStatus) (env : Outside) (ex : Exchange) (s : State),
    s.link.busy = some (.clearFault p .probe) → (s.port p).link = some ex → ex.header.kind = .probe →
    (st.letter = .A → st.tag = 0 → ∃ t, exec (.probeAnswer p st env) s = .next t ∧ t.link.busy = none ∧
      (t.port p).last = some st ∧ (t.port p).link = none ∧
      (st.fault = false → st.ready = true → (t.port p).state = .ready ∧ (t.port p).cause = .none ∧
        (∀ (l : Letter) (row : Row), s.row (rowOf p l) = some row → ∃ row', t.row (rowOf p l) = some row' ∧
          row'.cursor = row.cursor ∧ row'.fire = row.fire ∧ row'.drive = row.drive ∧ row'.errors = 0 ∧
          (∀ c, row.cursor = some c → ∃ ctx, row'.latch = .loading c.line (.assembling ctx)) ∧
          (row.cursor = none → row'.latch = row.latch)) ∧
        t.link = (finishWork .ok ([BitVec.ofNat 8 p.val, 1, 0, 1] ++ briefBytes st) s).link) ∧
      (st.fault = true ∨ st.ready = false → (t.port p).state = .fault ∧
        (t.port p).cause = (if st.fault then .headReported else .notReady) ∧ t.rows = s.rows ∧
        t.link = (finishWork .ok
          ([BitVec.ofNat 8 p.val, 2, if st.fault then 1 else 4, 1] ++ briefBytes st) s).link) ∧
      (∀ r : RowId, portOf r ≠ p → t.row r = s.row r) ∧ (∀ q : PortId, q ≠ p → t.port q = s.port q) ∧
      t.control = s.control ∧ t.geometry = s.geometry ∧ t.motion = s.motion ∧ t.drives = s.drives ∧
      t.pending = s.pending ∧ t.store.memory = s.store.memory) ∧
    exec (.probeTimeout p) s = .next
      (finishWork .ok [BitVec.ofNat 8 p.val, 2, 3, 0, 0, 0, 0, 0]
        { s with ports := put s.ports p { s.port p with link := none, state := .fault, cause := .noAnswer } })

/-! ### Reports (section 9) -/

/-- FETCH REPORT (R143, R144): the head report is removed and returned, the rest close up, and ATTENTION stays asserted
while one is still held; an empty queue answers the "none" mark and changes nothing (its POS and count bytes are 0: log
entry 39). -/
def Obligations.FetchReportReturnsHead : Prop :=
  ∀ s : State, Takes .request s →
    (∀ (r : Report) (rest : List Report), s.reports.queue = r :: rest →
      exec (.fetchReport []) s = .next
        (answered 0x90 .ok
          ([1, r.topic.kind] ++ leBytes 2 r.topic.page ++ leBytes 1 r.topic.unit ++ [r.topic.causeByte] ++
            leBytes 6 r.pos ++ leBytes 2 r.count ++ (r.detail.used ++ List.replicate 8 0).take 8 ++
            leBytes 1 rest.length)
          { s with reports := { queue := rest, attention := decide (rest ≠ []) } })) ∧
    (s.reports.queue = [] →
      exec (.fetchReport []) s = .next (answered 0x90 .ok (List.replicate 23 0) s))

/-- Posting an event (R139, R140). A report held with the same kind and subject is folded into in its place: its count
rises by one, no further than 65,535, and it takes the new detail. Otherwise a new report joins the tail while fewer
than 31 ordinary ones are held; past that the event is counted in the OVERFLOW report, added at the tail where none is
held. -/
def Obligations.EventsPosted : Prop :=
  ∀ (pos : Nat) (t : Topic) (d : Detail) (front back : List Report) (r : Report),
    (∀ q : List Report, (∀ x ∈ q, x.topic ≠ t) →
      (ordinaryHeld q < 31 → postTo pos t d q = q ++ [{ topic := t, pos := pos, count := 1, detail := d }]) ∧
      (31 ≤ ordinaryHeld q → (∀ x ∈ q, x.topic ≠ .overflow) →
        postTo pos t d q = q ++ [{ topic := .overflow, pos := pos, count := 1, detail := .none }])) ∧
    ((∀ x ∈ front ++ back, x.topic ≠ r.topic) →
      (r.topic = t → postTo pos t d (front ++ r :: back) =
        front ++ { r with count := if r.count < 65535 then r.count + 1 else r.count, detail := d } :: back) ∧
      (r.topic = .overflow → (∀ x ∈ front ++ r :: back, x.topic ≠ t) → 31 ≤ ordinaryHeld (front ++ r :: back) →
        postTo pos t d (front ++ r :: back) =
          front ++ { r with count := if r.count < 65535 then r.count + 1 else r.count, detail := .none } :: back))

/-! ### Fire positions, loads and line assembly (sections 4 to 6) -/

/-- A load begins (R80, R98, R100 to R102, R63). The latch becomes LOADING with the cursor's line, under the cap, the
head's origin and nozzle count, the seams of the head with their masks, and the governing lists in force: a changeover's
held list governs its port up to the last held line, the list held in the port's record every other line (R17). Where
the ring holds the line's stripe COMPLETE the load takes it: the source is its slot, and at the first take the record is
marked and the ahead count falls by one. Otherwise the load is blank: the page's UNDERRUN flag is set, the report is
posted, and the Stripe Store is not touched. On a port that is not READY no load begins. -/
def Obligations.LoadBegins : Prop :=
  ∀ (fetched : Nat) (r : RowId) (row : Row) (c : Cursor) (s : State), s.row r = some row → row.cursor = some c →
    let b := rowBar r
    let start := pageStart s.pages c.page
    let governs (q : PortId) (ds : List Defect) : Prop :=
      (∀ co, entry s.geometry.changeovers b = some co → co.port = q →
        (start < co.start ∨ start = co.start ∧ c.line ≤ co.line) → ds = co.held) ∧
      ((∀ co, entry s.geometry.changeovers b = some co → co.port = q →
        (co.start < start ∨ start = co.start ∧ co.line < c.line)) → ds = entry s.geometry.defects q)
    let found := (s.bar b).ring.find? fun st => decide (st.page = c.page) && decide (st.index = c.line / 64) &&
      !st.released
    let t := beginLoad fetched r s
    ((s.port (portOf r)).state ≠ .ready → t = s) ∧
    ((s.port (portOf r)).state = .ready →
      (∃ ctx, t.row r = some { row with latch := .loading c.line (.assembling ctx) } ∧
        (ctx.row, ctx.page, ctx.line) = (r, c.page, c.line) ∧
        (ctx.phase, ctx.stripe, ctx.place) = (c.line % 16, c.line / 64, c.line % 64) ∧
        ctx.cap = entry s.control.guard.caps b ∧
        (∀ h, entry s.geometry.heads (portOf r) = some h → ctx.origin = h.origin ∧ ctx.nozzles = h.size.count) ∧
        governs (portOf r) ctx.own ∧
        (∀ sv : SeamView, sv ∈ ctx.seams ↔
          ∃ (x y : PortId) (hx hy : Head) (i : Fin 3), Consecutive s.geometry x y hx hy ∧
            hy.origin < hx.origin + hx.size.count ∧ i.val = headsBelow s.geometry x ∧ sv.first = hy.origin ∧
            sv.mask = (match entry (entry s.geometry.masks b) i with | some m => m.columns | none => []) ∧
            (x = portOf r ∧ sv.isLeft = true ∧ sv.otherOrigin = hy.origin ∧ governs y sv.other ∨
              y = portOf r ∧ sv.isLeft = false ∧ sv.otherOrigin = hx.origin ∧ governs x sv.other)) ∧
        ctx.source = (match found with
          | some st => if st.state = .complete then .data st.slot else .blank
          | none => .blank)) ∧
      (∀ q : RowId, q ≠ r → t.row q = s.row q) ∧
      (∀ st, found = some st → st.state = .complete →
        (∀ x ∈ (s.bar b).ring, x.page = st.page → x.index = st.index → x.released = false → x = st) →
        (t.bar b).ring = (s.bar b).ring.map (fun x => if x = st ∧ st.retired = false then { x with taken := true }
          else x) ∧
        (t.bar b).ahead = if st.taken = false ∧ st.retired = false then (s.bar b).ahead - 1 else (s.bar b).ahead) ∧
      ((∀ st, found = some st → st.state = .filling) →
        t.store = s.store ∧
        t.pages = changePage c.page (fun p => { p with flags := { p.flags with underrun := true } }) s.pages ∧
        t.reports =
          { queue := postTo s.motion.pos (.underrun c.page b) (.line c.line) s.reports.queue, attention := true }))

/-- Reading a word of image memory (R70, R71, R72). A word found correct is used as read; one with a wrong bit is used
corrected and the corrected count rises to its top; an uncorrectable one reads as 0, the uncorrected count rises to
its top, the page's MEMORY flag is set, the capture record is filled if it was empty, and MEMORY ERROR is posted.
Image memory and its check bits do not change. -/
def Obligations.WordsReadUnderCheckBits : Prop :=
  ∀ (k : ReadKey) (place word : Nat) (s : State),
    let bytes := Memory.readRun s.store.memory (byteAddress k.slot place (8 * word)) 8
    let found := damageOf s.store.damage (wordAddress k.slot place word)
    (found = none → readWord k place word s = (bytes, s)) ∧
    (found = some .oneWrongBit → readWord k place word s =
      (bytes, { s with store := { s.store with
        corrected := if s.store.corrected < 4294967295 then s.store.corrected + 1 else s.store.corrected } })) ∧
    (found = some .uncorrectable → readWord k place word s =
      ([0, 0, 0, 0, 0, 0, 0, 0],
        { s with
          store := { s.store with
            uncorrected := if s.store.uncorrected < 65535 then s.store.uncorrected + 1 else s.store.uncorrected
            capture := if s.store.capture = none then
                some { source := k.source, bar := k.bar, slot := k.slot, page := k.page, stripe := k.stripe,
                       place := place, word := word }
              else s.store.capture }
          pages := changePage k.page (fun p => { p with flags := { p.flags with memory := true } }) s.pages
          reports :=
            { queue := postTo s.motion.pos .memoryError (.source k.source) s.reports.queue, attention := true } }))

/-- Successive fire positions of a row on one page lie floor(L / 65536) or one tick more apart, at least one tick, and
line k lies at the nearest whole tick to S + (O + k × L) / 65536, a half rounding up (R78, R79). -/
def Obligations.FirePositionsIncrease : Prop :=
  ∀ start offset k pitch : Nat, 65536 ≤ pitch →
    let F := firePosition start offset k pitch
    2 * (offset + k * pitch) < 65536 * (2 * (F - start) + 1) ∧
    65536 * (2 * (F - start)) ≤ 2 * (offset + k * pitch) + 65536 ∧
    F < firePosition start offset (k + 1) pitch ∧
    (firePosition start offset (k + 1) pitch = F + pitch / 65536 ∨
      firePosition start offset (k + 1) pitch = F + (pitch + 65535) / 65536)

/-- Over a seam column exactly one of the seam's two heads owns the column, whatever the mask and the lists, when both
heads' rows assemble the line under the same mask, phase and governing lists: the mask owner, unless its nozzle there
is dead and the other head's is not (R105, R106, R110). The contexts of two loads of one line, begun at the two heads of
an overlapping pair of a bar whose layout and masks pass GO ONLINE, under the same heads, masks and governing lists,
meet those conditions at every column of the overlap. -/
def Obligations.SeamColumnHasOneOwner : Prop :=
  (∀ (left right : Context) (lv rv : SeamView) (c : Nat),
    left.seams.find? (fun sv => sv.holds c) = some lv → right.seams.find? (fun sv => sv.holds c) = some rv →
    lv.isLeft = true → rv.isLeft = false → lv.first = rv.first → lv.mask = rv.mask → left.phase = right.phase →
    lv.otherOrigin = right.origin → rv.otherOrigin = left.origin → lv.other = right.own → rv.other = left.own →
    let deadL := isDead left.own (c - left.origin)
    let deadR := isDead right.own (c - right.origin)
    let maskL := maskSaysLeft lv.mask (c - lv.first) left.phase
    right.owns c = !left.owns c ∧
    left.owns c = (if maskL then !deadL || deadR else !deadL && deadR)) ∧
  ∀ (x y : PortId) (hx hy : Head) (lx ly : Letter) (cx cy : Cursor) (c : Nat) (s s' : State),
    Consecutive s.geometry x y hx hy → layoutOk s.geometry (barOf x) = true → masksOk s.geometry (barOf x) = true →
    s'.geometry.heads = s.geometry.heads → s'.geometry.masks = s.geometry.masks → cy.line = cx.line →
    (∀ q : PortId, governingList s'.geometry q (pageStart s'.pages cy.page) cy.line =
      governingList s.geometry q (pageStart s.pages cx.page) cx.line) →
    hy.origin ≤ c → c < hx.origin + hx.size.count →
    let left := makeContext s (rowOf x lx) cx
    let right := makeContext s' (rowOf y ly) cy
    let deadL := isDead left.own (c - hx.origin)
    let deadR := isDead right.own (c - hy.origin)
    right.owns c = !left.owns c ∧
    ∃ (i : Fin 3) (m : Mask), i.val = headsBelow s.geometry x ∧ entry (entry s.geometry.masks (barOf x)) i = some m ∧
      left.owns c = (if (m.columns.getD (c - hy.origin) 0).getLsbD (cx.line % 16) = false then !deadL || deadR
        else !deadL && deadR)

/-- The codes of a data line (R107 to R109): a dead nozzle gets 0; every other the smaller of the cap and the sum of
its own pixel, where the head owns its column, and the pixel of the dead nozzle it helps, where the head owns that
one's column. The list names the row's nozzles in ascending order, and a blank line's codes are all 0 (R99, R102). -/
def Obligations.CodesOfALine : Prop :=
  ∀ (ctx : Context),
    (∀ j, isDead ctx.own j = true → ctx.code j = 0) ∧
    (∀ j d, isDead ctx.own j = false → ctx.own.find? (fun e => e.helper = some j) = some d →
      (ctx.code j).val = min ctx.cap.val
        ((if ctx.owns (ctx.origin + j) then (ctx.pixel (ctx.origin + j)).val else 0) +
          (if ctx.owns (ctx.origin + d.dead) then (ctx.pixel (ctx.origin + d.dead)).val else 0))) ∧
    (∀ j, isDead ctx.own j = false → (∀ d ∈ ctx.own, d.helper ≠ some j) →
      (ctx.code j).val = min ctx.cap.val (if ctx.owns (ctx.origin + j) then (ctx.pixel (ctx.origin + j)).val else 0)) ∧
    (∀ code ∈ ctx.codeList.codes, code.val ≤ ctx.cap.val) ∧
    ctx.codeList.codes.length = ctx.nozzles / 2 ∧
    (∀ slot i, ctx.source = .data slot → i < ctx.nozzles / 2 →
      ctx.codeList.codes.getD i 0 = ctx.code (2 * i + if letterOf ctx.row = .A then 0 else 1)) ∧
    (ctx.source = .blank → ctx.codeList.blank = true ∧ ∀ code ∈ ctx.codeList.codes, code = 0)
end

