-- ==== Sys2Proof/Laws/State.lean ====
section
/-! SUPPORT. Each field of the state after each named update: one lemma per field per update. -/

namespace Sys2Proof.Machine

/-! ### `State.updateRow` -/

@[simp] theorem State.updateRow_pending (s : State) (r : RowId) (f : Row → Row) :
    (s.updateRow r f).pending = s.pending := rfl
@[simp] theorem State.updateRow_control (s : State) (r : RowId) (f : Row → Row) :
    (s.updateRow r f).control = s.control := rfl
@[simp] theorem State.updateRow_geometry (s : State) (r : RowId) (f : Row → Row) :
    (s.updateRow r f).geometry = s.geometry := rfl
@[simp] theorem State.updateRow_motion (s : State) (r : RowId) (f : Row → Row) :
    (s.updateRow r f).motion = s.motion := rfl
@[simp] theorem State.updateRow_pages (s : State) (r : RowId) (f : Row → Row) :
    (s.updateRow r f).pages = s.pages := rfl
@[simp] theorem State.updateRow_store (s : State) (r : RowId) (f : Row → Row) :
    (s.updateRow r f).store = s.store := rfl
@[simp] theorem State.updateRow_rows (s : State) (r : RowId) (f : Row → Row) :
    (s.updateRow r f).rows = put s.rows r ((entry s.rows r).map f) := rfl
@[simp] theorem State.updateRow_drives (s : State) (r : RowId) (f : Row → Row) :
    (s.updateRow r f).drives = s.drives := rfl
@[simp] theorem State.updateRow_ports (s : State) (r : RowId) (f : Row → Row) :
    (s.updateRow r f).ports = s.ports := rfl
@[simp] theorem State.updateRow_reports (s : State) (r : RowId) (f : Row → Row) :
    (s.updateRow r f).reports = s.reports := rfl
@[simp] theorem State.updateRow_link (s : State) (r : RowId) (f : Row → Row) : (s.updateRow r f).link = s.link := rfl

/-! ### `State.updatePort` -/

@[simp] theorem State.updatePort_pending (s : State) (p : PortId) (f : Port → Port) :
    (s.updatePort p f).pending = s.pending := rfl
@[simp] theorem State.updatePort_control (s : State) (p : PortId) (f : Port → Port) :
    (s.updatePort p f).control = s.control := rfl
@[simp] theorem State.updatePort_geometry (s : State) (p : PortId) (f : Port → Port) :
    (s.updatePort p f).geometry = s.geometry := rfl
@[simp] theorem State.updatePort_motion (s : State) (p : PortId) (f : Port → Port) :
    (s.updatePort p f).motion = s.motion := rfl
@[simp] theorem State.updatePort_pages (s : State) (p : PortId) (f : Port → Port) :
    (s.updatePort p f).pages = s.pages := rfl
@[simp] theorem State.updatePort_store (s : State) (p : PortId) (f : Port → Port) :
    (s.updatePort p f).store = s.store := rfl
@[simp] theorem State.updatePort_rows (s : State) (p : PortId) (f : Port → Port) :
    (s.updatePort p f).rows = s.rows := rfl
@[simp] theorem State.updatePort_drives (s : State) (p : PortId) (f : Port → Port) :
    (s.updatePort p f).drives = s.drives := rfl
@[simp] theorem State.updatePort_ports (s : State) (p : PortId) (f : Port → Port) :
    (s.updatePort p f).ports = put s.ports p (f (entry s.ports p)) := rfl
@[simp] theorem State.updatePort_reports (s : State) (p : PortId) (f : Port → Port) :
    (s.updatePort p f).reports = s.reports := rfl
@[simp] theorem State.updatePort_link (s : State) (p : PortId) (f : Port → Port) :
    (s.updatePort p f).link = s.link := rfl

/-! ### `State.updateBar` -/

@[simp] theorem State.updateBar_pending (s : State) (b : BarId) (f : BarStore → BarStore) :
    (s.updateBar b f).pending = s.pending := rfl
@[simp] theorem State.updateBar_control (s : State) (b : BarId) (f : BarStore → BarStore) :
    (s.updateBar b f).control = s.control := rfl
@[simp] theorem State.updateBar_geometry (s : State) (b : BarId) (f : BarStore → BarStore) :
    (s.updateBar b f).geometry = s.geometry := rfl
@[simp] theorem State.updateBar_motion (s : State) (b : BarId) (f : BarStore → BarStore) :
    (s.updateBar b f).motion = s.motion := rfl
@[simp] theorem State.updateBar_pages (s : State) (b : BarId) (f : BarStore → BarStore) :
    (s.updateBar b f).pages = s.pages := rfl
@[simp] theorem State.updateBar_store (s : State) (b : BarId) (f : BarStore → BarStore) :
    (s.updateBar b f).store = { s.store with bars := put s.store.bars b (f (entry s.store.bars b)) } := rfl
@[simp] theorem State.updateBar_rows (s : State) (b : BarId) (f : BarStore → BarStore) :
    (s.updateBar b f).rows = s.rows := rfl
@[simp] theorem State.updateBar_drives (s : State) (b : BarId) (f : BarStore → BarStore) :
    (s.updateBar b f).drives = s.drives := rfl
@[simp] theorem State.updateBar_ports (s : State) (b : BarId) (f : BarStore → BarStore) :
    (s.updateBar b f).ports = s.ports := rfl
@[simp] theorem State.updateBar_reports (s : State) (b : BarId) (f : BarStore → BarStore) :
    (s.updateBar b f).reports = s.reports := rfl
@[simp] theorem State.updateBar_link (s : State) (b : BarId) (f : BarStore → BarStore) :
    (s.updateBar b f).link = s.link := rfl

/-! ### `State.updatePage` -/

@[simp] theorem State.updatePage_pending (s : State) (id : Nat) (f : Page → Page) :
    (s.updatePage id f).pending = s.pending := rfl
@[simp] theorem State.updatePage_control (s : State) (id : Nat) (f : Page → Page) :
    (s.updatePage id f).control = s.control := rfl
@[simp] theorem State.updatePage_geometry (s : State) (id : Nat) (f : Page → Page) :
    (s.updatePage id f).geometry = s.geometry := rfl
@[simp] theorem State.updatePage_motion (s : State) (id : Nat) (f : Page → Page) :
    (s.updatePage id f).motion = s.motion := rfl
@[simp] theorem State.updatePage_pages (s : State) (id : Nat) (f : Page → Page) :
    (s.updatePage id f).pages = changePage id f s.pages := rfl
@[simp] theorem State.updatePage_store (s : State) (id : Nat) (f : Page → Page) :
    (s.updatePage id f).store = s.store := rfl
@[simp] theorem State.updatePage_rows (s : State) (id : Nat) (f : Page → Page) :
    (s.updatePage id f).rows = s.rows := rfl
@[simp] theorem State.updatePage_drives (s : State) (id : Nat) (f : Page → Page) :
    (s.updatePage id f).drives = s.drives := rfl
@[simp] theorem State.updatePage_ports (s : State) (id : Nat) (f : Page → Page) :
    (s.updatePage id f).ports = s.ports := rfl
@[simp] theorem State.updatePage_reports (s : State) (id : Nat) (f : Page → Page) :
    (s.updatePage id f).reports = s.reports := rfl
@[simp] theorem State.updatePage_link (s : State) (id : Nat) (f : Page → Page) :
    (s.updatePage id f).link = s.link := rfl

/-! ### `State.updateLink` -/

@[simp] theorem State.updateLink_pending (s : State) (f : Link → Link) : (s.updateLink f).pending = s.pending := rfl
@[simp] theorem State.updateLink_control (s : State) (f : Link → Link) : (s.updateLink f).control = s.control := rfl
@[simp] theorem State.updateLink_geometry (s : State) (f : Link → Link) :
    (s.updateLink f).geometry = s.geometry := rfl
@[simp] theorem State.updateLink_motion (s : State) (f : Link → Link) : (s.updateLink f).motion = s.motion := rfl
@[simp] theorem State.updateLink_pages (s : State) (f : Link → Link) : (s.updateLink f).pages = s.pages := rfl
@[simp] theorem State.updateLink_store (s : State) (f : Link → Link) : (s.updateLink f).store = s.store := rfl
@[simp] theorem State.updateLink_rows (s : State) (f : Link → Link) : (s.updateLink f).rows = s.rows := rfl
@[simp] theorem State.updateLink_drives (s : State) (f : Link → Link) : (s.updateLink f).drives = s.drives := rfl
@[simp] theorem State.updateLink_ports (s : State) (f : Link → Link) : (s.updateLink f).ports = s.ports := rfl
@[simp] theorem State.updateLink_reports (s : State) (f : Link → Link) : (s.updateLink f).reports = s.reports := rfl
@[simp] theorem State.updateLink_link (s : State) (f : Link → Link) : (s.updateLink f).link = f s.link := rfl

/-! ### `State.updateMotion` -/

@[simp] theorem State.updateMotion_pending (s : State) (f : Motion → Motion) :
    (s.updateMotion f).pending = s.pending := rfl
@[simp] theorem State.updateMotion_control (s : State) (f : Motion → Motion) :
    (s.updateMotion f).control = s.control := rfl
@[simp] theorem State.updateMotion_geometry (s : State) (f : Motion → Motion) :
    (s.updateMotion f).geometry = s.geometry := rfl
@[simp] theorem State.updateMotion_motion (s : State) (f : Motion → Motion) :
    (s.updateMotion f).motion = f s.motion := rfl
@[simp] theorem State.updateMotion_pages (s : State) (f : Motion → Motion) : (s.updateMotion f).pages = s.pages := rfl
@[simp] theorem State.updateMotion_store (s : State) (f : Motion → Motion) : (s.updateMotion f).store = s.store := rfl
@[simp] theorem State.updateMotion_rows (s : State) (f : Motion → Motion) : (s.updateMotion f).rows = s.rows := rfl
@[simp] theorem State.updateMotion_drives (s : State) (f : Motion → Motion) :
    (s.updateMotion f).drives = s.drives := rfl
@[simp] theorem State.updateMotion_ports (s : State) (f : Motion → Motion) : (s.updateMotion f).ports = s.ports := rfl
@[simp] theorem State.updateMotion_reports (s : State) (f : Motion → Motion) :
    (s.updateMotion f).reports = s.reports := rfl
@[simp] theorem State.updateMotion_link (s : State) (f : Motion → Motion) : (s.updateMotion f).link = s.link := rfl

/-! ### `State.withOp` -/

@[simp] theorem State.withOp_pending (s : State) (op : OpState) : (s.withOp op).pending = s.pending := rfl
@[simp] theorem State.withOp_control (s : State) (op : OpState) :
    (s.withOp op).control = { s.control with op := op } := rfl
@[simp] theorem State.withOp_geometry (s : State) (op : OpState) : (s.withOp op).geometry = s.geometry := rfl
@[simp] theorem State.withOp_motion (s : State) (op : OpState) : (s.withOp op).motion = s.motion := rfl
@[simp] theorem State.withOp_pages (s : State) (op : OpState) : (s.withOp op).pages = s.pages := rfl
@[simp] theorem State.withOp_store (s : State) (op : OpState) : (s.withOp op).store = s.store := rfl
@[simp] theorem State.withOp_rows (s : State) (op : OpState) : (s.withOp op).rows = s.rows := rfl
@[simp] theorem State.withOp_drives (s : State) (op : OpState) : (s.withOp op).drives = s.drives := rfl
@[simp] theorem State.withOp_ports (s : State) (op : OpState) : (s.withOp op).ports = s.ports := rfl
@[simp] theorem State.withOp_reports (s : State) (op : OpState) : (s.withOp op).reports = s.reports := rfl
@[simp] theorem State.withOp_link (s : State) (op : OpState) : (s.withOp op).link = s.link := rfl

/-! ### `upset` -/

@[simp] theorem upset_pending (us : List Upset) (s : State) : (upset us s).pending = s.pending := rfl
@[simp] theorem upset_control (us : List Upset) (s : State) : (upset us s).control = s.control := rfl
@[simp] theorem upset_geometry (us : List Upset) (s : State) : (upset us s).geometry = s.geometry := rfl
@[simp] theorem upset_motion (us : List Upset) (s : State) : (upset us s).motion = s.motion := rfl
@[simp] theorem upset_pages (us : List Upset) (s : State) : (upset us s).pages = s.pages := rfl
@[simp] theorem upset_store (us : List Upset) (s : State) :
    (upset us s).store = { s.store with damage := applyUpsets us s.store.damage } := rfl
@[simp] theorem upset_rows (us : List Upset) (s : State) : (upset us s).rows = s.rows := rfl
@[simp] theorem upset_drives (us : List Upset) (s : State) : (upset us s).drives = s.drives := rfl
@[simp] theorem upset_ports (us : List Upset) (s : State) : (upset us s).ports = s.ports := rfl
@[simp] theorem upset_reports (us : List Upset) (s : State) : (upset us s).reports = s.reports := rfl
@[simp] theorem upset_link (us : List Upset) (s : State) : (upset us s).link = s.link := rfl

/-! ### `post` -/

@[simp] theorem post_pending (t : Topic) (d : Detail) (s : State) : (post t d s).pending = s.pending := rfl
@[simp] theorem post_control (t : Topic) (d : Detail) (s : State) : (post t d s).control = s.control := rfl
@[simp] theorem post_geometry (t : Topic) (d : Detail) (s : State) : (post t d s).geometry = s.geometry := rfl
@[simp] theorem post_motion (t : Topic) (d : Detail) (s : State) : (post t d s).motion = s.motion := rfl
@[simp] theorem post_pages (t : Topic) (d : Detail) (s : State) : (post t d s).pages = s.pages := rfl
@[simp] theorem post_store (t : Topic) (d : Detail) (s : State) : (post t d s).store = s.store := rfl
@[simp] theorem post_rows (t : Topic) (d : Detail) (s : State) : (post t d s).rows = s.rows := rfl
@[simp] theorem post_drives (t : Topic) (d : Detail) (s : State) : (post t d s).drives = s.drives := rfl
@[simp] theorem post_ports (t : Topic) (d : Detail) (s : State) : (post t d s).ports = s.ports := rfl
@[simp] theorem post_link (t : Topic) (d : Detail) (s : State) : (post t d s).link = s.link := rfl

/-! ### `emptyReports` -/

@[simp] theorem emptyReports_pending (s : State) : (emptyReports s).pending = s.pending := rfl
@[simp] theorem emptyReports_control (s : State) : (emptyReports s).control = s.control := rfl
@[simp] theorem emptyReports_geometry (s : State) : (emptyReports s).geometry = s.geometry := rfl
@[simp] theorem emptyReports_motion (s : State) : (emptyReports s).motion = s.motion := rfl
@[simp] theorem emptyReports_pages (s : State) : (emptyReports s).pages = s.pages := rfl
@[simp] theorem emptyReports_store (s : State) : (emptyReports s).store = s.store := rfl
@[simp] theorem emptyReports_rows (s : State) : (emptyReports s).rows = s.rows := rfl
@[simp] theorem emptyReports_drives (s : State) : (emptyReports s).drives = s.drives := rfl
@[simp] theorem emptyReports_ports (s : State) : (emptyReports s).ports = s.ports := rfl
@[simp] theorem emptyReports_reports (s : State) :
    (emptyReports s).reports = { queue := [], attention := false } := rfl
@[simp] theorem emptyReports_link (s : State) : (emptyReports s).link = s.link := rfl

/-! ### `placeCursor` -/

@[simp] theorem placeCursor_pending (r : RowId) (page line : Nat) (s : State) :
    (placeCursor r page line s).pending = s.pending := rfl
@[simp] theorem placeCursor_control (r : RowId) (page line : Nat) (s : State) :
    (placeCursor r page line s).control = s.control := rfl
@[simp] theorem placeCursor_geometry (r : RowId) (page line : Nat) (s : State) :
    (placeCursor r page line s).geometry = s.geometry := rfl
@[simp] theorem placeCursor_motion (r : RowId) (page line : Nat) (s : State) :
    (placeCursor r page line s).motion = s.motion := rfl
@[simp] theorem placeCursor_pages (r : RowId) (page line : Nat) (s : State) :
    (placeCursor r page line s).pages = s.pages := rfl
@[simp] theorem placeCursor_store (r : RowId) (page line : Nat) (s : State) :
    (placeCursor r page line s).store = s.store := rfl
@[simp] theorem placeCursor_drives (r : RowId) (page line : Nat) (s : State) :
    (placeCursor r page line s).drives = s.drives := rfl
@[simp] theorem placeCursor_ports (r : RowId) (page line : Nat) (s : State) :
    (placeCursor r page line s).ports = s.ports := rfl
@[simp] theorem placeCursor_reports (r : RowId) (page line : Nat) (s : State) :
    (placeCursor r page line s).reports = s.reports := rfl
@[simp] theorem placeCursor_link (r : RowId) (page line : Nat) (s : State) :
    (placeCursor r page line s).link = s.link := rfl

/-! ### `makeIdle` -/

@[simp] theorem makeIdle_pending (r : RowId) (s : State) : (makeIdle r s).pending = s.pending := rfl
@[simp] theorem makeIdle_control (r : RowId) (s : State) : (makeIdle r s).control = s.control := rfl
@[simp] theorem makeIdle_geometry (r : RowId) (s : State) : (makeIdle r s).geometry = s.geometry := rfl
@[simp] theorem makeIdle_motion (r : RowId) (s : State) : (makeIdle r s).motion = s.motion := rfl
@[simp] theorem makeIdle_pages (r : RowId) (s : State) : (makeIdle r s).pages = s.pages := rfl
@[simp] theorem makeIdle_store (r : RowId) (s : State) : (makeIdle r s).store = s.store := rfl
@[simp] theorem makeIdle_drives (r : RowId) (s : State) : (makeIdle r s).drives = s.drives := rfl
@[simp] theorem makeIdle_ports (r : RowId) (s : State) : (makeIdle r s).ports = s.ports := rfl
@[simp] theorem makeIdle_reports (r : RowId) (s : State) : (makeIdle r s).reports = s.reports := rfl
@[simp] theorem makeIdle_link (r : RowId) (s : State) : (makeIdle r s).link = s.link := rfl

/-! ### `openContext` -/

@[simp] theorem openContext_pending (r : RowId) (c : Cursor) (s : State) :
    (openContext r c s).pending = s.pending := rfl
@[simp] theorem openContext_control (r : RowId) (c : Cursor) (s : State) :
    (openContext r c s).control = s.control := rfl
@[simp] theorem openContext_geometry (r : RowId) (c : Cursor) (s : State) :
    (openContext r c s).geometry = s.geometry := rfl
@[simp] theorem openContext_motion (r : RowId) (c : Cursor) (s : State) : (openContext r c s).motion = s.motion := rfl
@[simp] theorem openContext_pages (r : RowId) (c : Cursor) (s : State) : (openContext r c s).pages = s.pages := rfl
@[simp] theorem openContext_store (r : RowId) (c : Cursor) (s : State) : (openContext r c s).store = s.store := rfl
@[simp] theorem openContext_drives (r : RowId) (c : Cursor) (s : State) : (openContext r c s).drives = s.drives := rfl
@[simp] theorem openContext_ports (r : RowId) (c : Cursor) (s : State) : (openContext r c s).ports = s.ports := rfl
@[simp] theorem openContext_reports (r : RowId) (c : Cursor) (s : State) :
    (openContext r c s).reports = s.reports := rfl
@[simp] theorem openContext_link (r : RowId) (c : Cursor) (s : State) : (openContext r c s).link = s.link := rfl

/-! ### `freeLink` -/

@[simp] theorem freeLink_pending (p : PortId) (s : State) : (freeLink p s).pending = s.pending := rfl
@[simp] theorem freeLink_control (p : PortId) (s : State) : (freeLink p s).control = s.control := rfl
@[simp] theorem freeLink_geometry (p : PortId) (s : State) : (freeLink p s).geometry = s.geometry := rfl
@[simp] theorem freeLink_motion (p : PortId) (s : State) : (freeLink p s).motion = s.motion := rfl
@[simp] theorem freeLink_pages (p : PortId) (s : State) : (freeLink p s).pages = s.pages := rfl
@[simp] theorem freeLink_store (p : PortId) (s : State) : (freeLink p s).store = s.store := rfl
@[simp] theorem freeLink_rows (p : PortId) (s : State) : (freeLink p s).rows = s.rows := rfl
@[simp] theorem freeLink_drives (p : PortId) (s : State) : (freeLink p s).drives = s.drives := rfl
@[simp] theorem freeLink_reports (p : PortId) (s : State) : (freeLink p s).reports = s.reports := rfl
@[simp] theorem freeLink_link (p : PortId) (s : State) : (freeLink p s).link = s.link := rfl

/-! ### `sendProbe` -/

@[simp] theorem sendProbe_pending (p : PortId) (s : State) : (sendProbe p s).pending = s.pending := rfl
@[simp] theorem sendProbe_control (p : PortId) (s : State) : (sendProbe p s).control = s.control := rfl
@[simp] theorem sendProbe_geometry (p : PortId) (s : State) : (sendProbe p s).geometry = s.geometry := rfl
@[simp] theorem sendProbe_motion (p : PortId) (s : State) : (sendProbe p s).motion = s.motion := rfl
@[simp] theorem sendProbe_pages (p : PortId) (s : State) : (sendProbe p s).pages = s.pages := rfl
@[simp] theorem sendProbe_store (p : PortId) (s : State) : (sendProbe p s).store = s.store := rfl
@[simp] theorem sendProbe_rows (p : PortId) (s : State) : (sendProbe p s).rows = s.rows := rfl
@[simp] theorem sendProbe_drives (p : PortId) (s : State) : (sendProbe p s).drives = s.drives := rfl
@[simp] theorem sendProbe_reports (p : PortId) (s : State) : (sendProbe p s).reports = s.reports := rfl
@[simp] theorem sendProbe_link (p : PortId) (s : State) : (sendProbe p s).link = s.link := rfl

/-! ### `setGuardRecord` -/

@[simp] theorem setGuardRecord_pending (g : Guard) (s : State) : (setGuardRecord g s).pending = s.pending := rfl
@[simp] theorem setGuardRecord_control (g : Guard) (s : State) :
    (setGuardRecord g s).control = { s.control with guard := g } := rfl
@[simp] theorem setGuardRecord_geometry (g : Guard) (s : State) : (setGuardRecord g s).geometry = s.geometry := rfl
@[simp] theorem setGuardRecord_motion (g : Guard) (s : State) : (setGuardRecord g s).motion = s.motion := rfl
@[simp] theorem setGuardRecord_pages (g : Guard) (s : State) : (setGuardRecord g s).pages = s.pages := rfl
@[simp] theorem setGuardRecord_store (g : Guard) (s : State) : (setGuardRecord g s).store = s.store := rfl
@[simp] theorem setGuardRecord_rows (g : Guard) (s : State) : (setGuardRecord g s).rows = s.rows := rfl
@[simp] theorem setGuardRecord_drives (g : Guard) (s : State) : (setGuardRecord g s).drives = s.drives := rfl
@[simp] theorem setGuardRecord_ports (g : Guard) (s : State) : (setGuardRecord g s).ports = s.ports := rfl
@[simp] theorem setGuardRecord_reports (g : Guard) (s : State) : (setGuardRecord g s).reports = s.reports := rfl
@[simp] theorem setGuardRecord_link (g : Guard) (s : State) : (setGuardRecord g s).link = s.link := rfl

/-! ### `noteCorrected` -/

@[simp] theorem noteCorrected_pending (s : State) : (noteCorrected s).pending = s.pending := rfl
@[simp] theorem noteCorrected_control (s : State) : (noteCorrected s).control = s.control := rfl
@[simp] theorem noteCorrected_geometry (s : State) : (noteCorrected s).geometry = s.geometry := rfl
@[simp] theorem noteCorrected_motion (s : State) : (noteCorrected s).motion = s.motion := rfl
@[simp] theorem noteCorrected_pages (s : State) : (noteCorrected s).pages = s.pages := rfl
@[simp] theorem noteCorrected_rows (s : State) : (noteCorrected s).rows = s.rows := rfl
@[simp] theorem noteCorrected_drives (s : State) : (noteCorrected s).drives = s.drives := rfl
@[simp] theorem noteCorrected_ports (s : State) : (noteCorrected s).ports = s.ports := rfl
@[simp] theorem noteCorrected_reports (s : State) : (noteCorrected s).reports = s.reports := rfl
@[simp] theorem noteCorrected_link (s : State) : (noteCorrected s).link = s.link := rfl

/-! ### `refreshCursor` -/

@[simp] theorem refreshCursor_pending (b : BarId) (s : State) : (refreshCursor b s).pending = s.pending := rfl
@[simp] theorem refreshCursor_control (b : BarId) (s : State) : (refreshCursor b s).control = s.control := rfl
@[simp] theorem refreshCursor_geometry (b : BarId) (s : State) : (refreshCursor b s).geometry = s.geometry := rfl
@[simp] theorem refreshCursor_motion (b : BarId) (s : State) : (refreshCursor b s).motion = s.motion := rfl
@[simp] theorem refreshCursor_pages (b : BarId) (s : State) : (refreshCursor b s).pages = s.pages := rfl
@[simp] theorem refreshCursor_rows (b : BarId) (s : State) : (refreshCursor b s).rows = s.rows := rfl
@[simp] theorem refreshCursor_drives (b : BarId) (s : State) : (refreshCursor b s).drives = s.drives := rfl
@[simp] theorem refreshCursor_ports (b : BarId) (s : State) : (refreshCursor b s).ports = s.ports := rfl
@[simp] theorem refreshCursor_reports (b : BarId) (s : State) : (refreshCursor b s).reports = s.reports := rfl
@[simp] theorem refreshCursor_link (b : BarId) (s : State) : (refreshCursor b s).link = s.link := rfl

/-! ### `addReply` -/

@[simp] theorem addReply_pending (r : Reply) (s : State) : (addReply r s).pending = s.pending := rfl
@[simp] theorem addReply_control (r : Reply) (s : State) : (addReply r s).control = s.control := rfl
@[simp] theorem addReply_geometry (r : Reply) (s : State) : (addReply r s).geometry = s.geometry := rfl
@[simp] theorem addReply_motion (r : Reply) (s : State) : (addReply r s).motion = s.motion := rfl
@[simp] theorem addReply_pages (r : Reply) (s : State) : (addReply r s).pages = s.pages := rfl
@[simp] theorem addReply_store (r : Reply) (s : State) : (addReply r s).store = s.store := rfl
@[simp] theorem addReply_rows (r : Reply) (s : State) : (addReply r s).rows = s.rows := rfl
@[simp] theorem addReply_drives (r : Reply) (s : State) : (addReply r s).drives = s.drives := rfl
@[simp] theorem addReply_ports (r : Reply) (s : State) : (addReply r s).ports = s.ports := rfl
@[simp] theorem addReply_reports (r : Reply) (s : State) : (addReply r s).reports = s.reports := rfl

/-! ### `finishWork` -/

@[simp] theorem finishWork_pending (st : Status) (fields : List Byte) (s : State) :
    (finishWork st fields s).pending = s.pending := rfl
@[simp] theorem finishWork_control (st : Status) (fields : List Byte) (s : State) :
    (finishWork st fields s).control = s.control := rfl
@[simp] theorem finishWork_geometry (st : Status) (fields : List Byte) (s : State) :
    (finishWork st fields s).geometry = s.geometry := rfl
@[simp] theorem finishWork_motion (st : Status) (fields : List Byte) (s : State) :
    (finishWork st fields s).motion = s.motion := rfl
@[simp] theorem finishWork_pages (st : Status) (fields : List Byte) (s : State) :
    (finishWork st fields s).pages = s.pages := rfl
@[simp] theorem finishWork_store (st : Status) (fields : List Byte) (s : State) :
    (finishWork st fields s).store = s.store := rfl
@[simp] theorem finishWork_rows (st : Status) (fields : List Byte) (s : State) :
    (finishWork st fields s).rows = s.rows := rfl
@[simp] theorem finishWork_drives (st : Status) (fields : List Byte) (s : State) :
    (finishWork st fields s).drives = s.drives := rfl
@[simp] theorem finishWork_ports (st : Status) (fields : List Byte) (s : State) :
    (finishWork st fields s).ports = s.ports := rfl
@[simp] theorem finishWork_reports (st : Status) (fields : List Byte) (s : State) :
    (finishWork st fields s).reports = s.reports := rfl

/-! ### `heard` -/

@[simp] theorem heard_pending (s : State) : (heard s).pending = s.pending := rfl
@[simp] theorem heard_control (s : State) : (heard s).control = s.control := rfl
@[simp] theorem heard_geometry (s : State) : (heard s).geometry = s.geometry := rfl
@[simp] theorem heard_motion (s : State) : (heard s).motion = s.motion := rfl
@[simp] theorem heard_pages (s : State) : (heard s).pages = s.pages := rfl
@[simp] theorem heard_store (s : State) : (heard s).store = s.store := rfl
@[simp] theorem heard_rows (s : State) : (heard s).rows = s.rows := rfl
@[simp] theorem heard_drives (s : State) : (heard s).drives = s.drives := rfl
@[simp] theorem heard_ports (s : State) : (heard s).ports = s.ports := rfl
@[simp] theorem heard_reports (s : State) : (heard s).reports = s.reports := rfl
@[simp] theorem heard_link (s : State) : (heard s).link = { s.link with receiver := none, trialOpen := false } := rfl

/-! ### `replied` -/

@[simp] theorem replied_pending (r : Reply) (s : State) : (replied r s).pending = s.pending := rfl
@[simp] theorem replied_control (r : Reply) (s : State) : (replied r s).control = s.control := rfl
@[simp] theorem replied_geometry (r : Reply) (s : State) : (replied r s).geometry = s.geometry := rfl
@[simp] theorem replied_motion (r : Reply) (s : State) : (replied r s).motion = s.motion := rfl
@[simp] theorem replied_pages (r : Reply) (s : State) : (replied r s).pages = s.pages := rfl
@[simp] theorem replied_store (r : Reply) (s : State) : (replied r s).store = s.store := rfl
@[simp] theorem replied_rows (r : Reply) (s : State) : (replied r s).rows = s.rows := rfl
@[simp] theorem replied_drives (r : Reply) (s : State) : (replied r s).drives = s.drives := rfl
@[simp] theorem replied_ports (r : Reply) (s : State) : (replied r s).ports = s.ports := rfl
@[simp] theorem replied_reports (r : Reply) (s : State) : (replied r s).reports = s.reports := rfl

/-! ### `answered` -/

@[simp] theorem answered_pending (echo : Byte) (st : Status) (fields : List Byte) (s : State) :
    (answered echo st fields s).pending = s.pending := rfl
@[simp] theorem answered_control (echo : Byte) (st : Status) (fields : List Byte) (s : State) :
    (answered echo st fields s).control = s.control := rfl
@[simp] theorem answered_geometry (echo : Byte) (st : Status) (fields : List Byte) (s : State) :
    (answered echo st fields s).geometry = s.geometry := rfl
@[simp] theorem answered_motion (echo : Byte) (st : Status) (fields : List Byte) (s : State) :
    (answered echo st fields s).motion = s.motion := rfl
@[simp] theorem answered_pages (echo : Byte) (st : Status) (fields : List Byte) (s : State) :
    (answered echo st fields s).pages = s.pages := rfl
@[simp] theorem answered_store (echo : Byte) (st : Status) (fields : List Byte) (s : State) :
    (answered echo st fields s).store = s.store := rfl
@[simp] theorem answered_rows (echo : Byte) (st : Status) (fields : List Byte) (s : State) :
    (answered echo st fields s).rows = s.rows := rfl
@[simp] theorem answered_drives (echo : Byte) (st : Status) (fields : List Byte) (s : State) :
    (answered echo st fields s).drives = s.drives := rfl
@[simp] theorem answered_ports (echo : Byte) (st : Status) (fields : List Byte) (s : State) :
    (answered echo st fields s).ports = s.ports := rfl
@[simp] theorem answered_reports (echo : Byte) (st : Status) (fields : List Byte) (s : State) :
    (answered echo st fields s).reports = s.reports := rfl

/-! ### `undertaken` -/

@[simp] theorem undertaken_pending (echo : Byte) (w : Work) (s : State) :
    (undertaken echo w s).pending = s.pending := rfl
@[simp] theorem undertaken_control (echo : Byte) (w : Work) (s : State) :
    (undertaken echo w s).control = s.control := rfl
@[simp] theorem undertaken_geometry (echo : Byte) (w : Work) (s : State) :
    (undertaken echo w s).geometry = s.geometry := rfl
@[simp] theorem undertaken_motion (echo : Byte) (w : Work) (s : State) :
    (undertaken echo w s).motion = s.motion := rfl
@[simp] theorem undertaken_pages (echo : Byte) (w : Work) (s : State) : (undertaken echo w s).pages = s.pages := rfl
@[simp] theorem undertaken_store (echo : Byte) (w : Work) (s : State) : (undertaken echo w s).store = s.store := rfl
@[simp] theorem undertaken_rows (echo : Byte) (w : Work) (s : State) : (undertaken echo w s).rows = s.rows := rfl
@[simp] theorem undertaken_drives (echo : Byte) (w : Work) (s : State) :
    (undertaken echo w s).drives = s.drives := rfl
@[simp] theorem undertaken_ports (echo : Byte) (w : Work) (s : State) : (undertaken echo w s).ports = s.ports := rfl
@[simp] theorem undertaken_reports (echo : Byte) (w : Work) (s : State) :
    (undertaken echo w s).reports = s.reports := rfl

/-! ### Entries of tables -/

@[simp] theorem entry_put_same {α : Type} {n : Nat} (t : Vector α n) (i : Fin n) (x : α) :
    entry (put t i x) i = x := by simp [entry, put]

theorem entry_put_of_ne {α : Type} {n : Nat} (t : Vector α n) {i j : Fin n} (x : α) (h : i ≠ j) :
    entry (put t i x) j = entry t j := by
  have h' : i.val ≠ j.val := fun e => h (Fin.ext e)
  simp [entry, put, h']

theorem entry_put {α : Type} {n : Nat} (t : Vector α n) (i j : Fin n) (x : α) :
    entry (put t i x) j = if i = j then x else entry t j := by
  by_cases h : i = j
  · subst h; simp
  · simp [h, entry_put_of_ne t x h]

@[simp] theorem put_put {α : Type} {n : Nat} (t : Vector α n) (i : Fin n) (x y : α) :
    put (put t i x) i y = put t i y := by simp [put]

@[simp] theorem put_entry {α : Type} {n : Nat} (t : Vector α n) (i : Fin n) : put t i (entry t i) = t := by
  simp [put, entry]

theorem table_ext {α : Type} {n : Nat} {t u : Vector α n} (h : ∀ i : Fin n, entry t i = entry u i) : t = u := by
  ext i hi
  exact h ⟨i, hi⟩

@[simp] theorem entry_ofFn {α : Type} {n : Nat} (f : Fin n → α) (i : Fin n) : entry (Vector.ofFn f) i = f i := by
  simp [entry]

@[simp] theorem entry_replicate {α : Type} {n : Nat} (x : α) (i : Fin n) : entry (Vector.replicate n x) i = x := by
  simp [entry]

@[simp] theorem entry_map {α β : Type} {n : Nat} (f : α → β) (t : Vector α n) (i : Fin n) :
    entry (t.map f) i = f (entry t i) := by simp [entry]

/-! ### Rows, ports and bars after an update -/

@[simp] theorem State.row_updateRow_same (s : State) (r : RowId) (f : Row → Row) :
    (s.updateRow r f).row r = (s.row r).map f := by simp [State.row]

theorem State.row_updateRow_of_ne (s : State) {r q : RowId} (f : Row → Row) (h : r ≠ q) :
    (s.updateRow r f).row q = s.row q := by simp [State.row, entry_put_of_ne _ _ h]

theorem State.row_updateRow (s : State) (r q : RowId) (f : Row → Row) :
    (s.updateRow r f).row q = if r = q then (s.row r).map f else s.row q := by
  simp [State.row, entry_put]

@[simp] theorem State.port_updatePort_same (s : State) (p : PortId) (f : Port → Port) :
    (s.updatePort p f).port p = f (s.port p) := by simp [State.port]

theorem State.port_updatePort (s : State) (p q : PortId) (f : Port → Port) :
    (s.updatePort p f).port q = if p = q then f (s.port p) else s.port q := by
  simp [State.port, entry_put]

@[simp] theorem State.bar_updateBar_same (s : State) (b : BarId) (f : BarStore → BarStore) :
    (s.updateBar b f).bar b = f (s.bar b) := by simp [State.bar]

theorem State.bar_updateBar (s : State) (b c : BarId) (f : BarStore → BarStore) :
    (s.updateBar b f).bar c = if b = c then f (s.bar b) else s.bar c := by
  simp [State.bar, entry_put]

/-- A row, a port and a bar are read from one field each. -/
theorem State.row_congr {s t : State} (h : t.rows = s.rows) (r : RowId) : t.row r = s.row r := by
  simp [State.row, h]

theorem State.port_congr {s t : State} (h : t.ports = s.ports) (p : PortId) : t.port p = s.port p := by
  simp [State.port, h]

theorem State.bar_congr {s t : State} (h : t.store.bars = s.store.bars) (b : BarId) : t.bar b = s.bar b := by
  simp [State.bar, h]

/-! ### Ports, rows and letters -/

@[simp] theorem portOf_rowOf (p : PortId) (l : Letter) : portOf (rowOf p l) = p := by
  cases l
  · simp [portOf, rowOf]
  · simp [portOf, rowOf, Fin.ext_iff]
    omega

@[simp] theorem letterOf_rowOf (p : PortId) (l : Letter) : letterOf (rowOf p l) = l := by
  cases l
  · simp [letterOf, rowOf]
  · simp [letterOf, rowOf]

@[simp] theorem rowOf_letterOf (r : RowId) : rowOf (portOf r) (letterOf r) = r := by
  unfold letterOf
  split <;> simp [portOf, rowOf, Fin.ext_iff] <;> omega

end Sys2Proof.Machine
end

