-- ==== Sys2Proof/Laws/Bytes.lean ====
section
/-! SUPPORT. Fields of frames and blocks: a value written least significant byte first reads back, wherever it stands;
and page records found by their ids. -/

namespace Sys2Proof.Machine

@[simp] theorem leBytes_length (n v : Nat) : (leBytes n v).length = n := by
  induction n generalizing v with
  | zero => rfl
  | succ n ih => simp [leBytes, ih]

/-- A value that fits n bytes reads back from its n bytes. -/
theorem leValue_leBytes (n v : Nat) (h : v < 256 ^ n) : leValue (leBytes n v) = v := by
  induction n generalizing v with
  | zero => simp [leBytes, leValue] at *; omega
  | succ n ih =>
    have : v / 256 < 256 ^ n := by rw [Nat.pow_succ] at h; omega
    simp only [leBytes, leValue, BitVec.toNat_ofNat, ih _ this]
    omega

/-- A value within a block reads back from where it stands. -/
theorem fieldAt_append (front back : List Byte) (n v : Nat) (h : v < 256 ^ n) :
    fieldAt (front ++ leBytes n v ++ back) front.length n = v := by
  rw [fieldAt, List.append_assoc, List.drop_left, List.take_append_of_le_length (by simp),
    List.take_of_length_le (by simp), leValue_leBytes n v h]

/-- A field of a block is unchanged by what stands before the block. -/
theorem fieldAt_skip (front ps : List Byte) (pos n : Nat) :
    fieldAt (front ++ ps) (front.length + pos) n = fieldAt ps pos n := by
  have h : (front ++ ps).drop (front.length + pos) = ps.drop pos := by
    rw [← List.drop_drop, List.drop_left]
  rw [fieldAt, fieldAt, h]

/-- The record with an id, where no record before it has that id. -/
theorem findPage_append {front back : List Page} {p : Page} (h : ∀ q ∈ front, q.id ≠ p.id) :
    findPage (front ++ p :: back) p.id = some p := by
  induction front with
  | nil => simp [findPage]
  | cons q qs ih =>
    simp only [findPage, List.mem_cons, forall_eq_or_imp, List.cons_append] at *
    simp [h.1, ih h.2]

/-- The place of that record counts the records before it. -/
theorem placeOf_append {front back : List Page} {p : Page} (h : ∀ q ∈ front, q.id ≠ p.id) :
    placeOf (front ++ p :: back) p.id = front.length := by
  induction front with
  | nil => simp [placeOf]
  | cons q qs ih =>
    simp only [placeOf, List.mem_cons, forall_eq_or_imp, List.cons_append] at *
    rw [List.takeWhile_cons_of_pos (by simpa using h.1), List.length_cons, List.length_cons, ih h.2]

end Sys2Proof.Machine
end

