-- ==== Sys2Proof/Laws/Link.lean ====
section
/-! SUPPORT. Frames and replies: what taking a frame, answering at once, refusing and ending work do to the part, each
said once. -/

namespace Sys2Proof.Machine

/-! ### The reply queue -/

@[simp] theorem headReady_nil : headReady [] = false := rfl
@[simp] theorem headReady_ready (r : Reply) (es : List ReplyEntry) : headReady (.ready r :: es) = true := rfl
@[simp] theorem headReady_place (echo : Byte) (es : List ReplyEntry) : headReady (.place echo :: es) = false := rfl
@[simp] theorem isReady_ready (r : Reply) : (ReplyEntry.ready r).isReady = true := rfl
@[simp] theorem isReady_place (echo : Byte) : (ReplyEntry.place echo).isReady = false := rfl

/-- The transmitter takes up the head entry exactly where it is ready and nothing is being sent. -/
theorem beginSending_eq (l : Link) :
    beginSending l = { l with
      sending := if l.sending = none ∧ headReady l.replies = true then some l.rate else l.sending } := by
  obtain ⟨recv, rate, trial, sw, replies, sending, busy, sent⟩ := l
  cases sending <;> cases replies with
  | nil => simp [beginSending]
  | cons e es => cases e <;> simp [beginSending]

/-- A reply at the tail. -/
theorem addReply_eq (r : Reply) (s : State) : addReply r s = replied r s := by
  simp [addReply, replied, State.updateLink, beginSending_eq]

/-- The place behind ready entries is the one that is filled. -/
theorem fillPlace_append (st : Status) (fields : List Byte) (front back : List ReplyEntry) (echo : Byte)
    (h : front.all ReplyEntry.isReady = true) :
    fillPlace st fields (front ++ .place echo :: back) =
      front ++ .ready { status := st, echo := echo, fields := fields } :: back := by
  induction front with
  | nil => rfl
  | cons e es ih =>
    cases e with
    | ready r =>
      simp only [List.all_cons, Bool.and_eq_true] at h
      simp [fillPlace, ih h.2]
    | place b => simp at h

/-- A queue of ready entries with one more ready entry has a ready head. -/
theorem headReady_append_ready (es : List ReplyEntry) (r : Reply) (h : es.all ReplyEntry.isReady = true) :
    headReady (es ++ [.ready r]) = true := by
  cases es with
  | nil => rfl
  | cons e es => cases e <;> simp_all

/-! ### Taking a frame -/

/-- The part with a good frame's place at the tail, as its judgement finds it. -/
def admitted (echo : Byte) (s : State) : State :=
  (heard s).updateLink fun l => { l with replies := l.replies ++ [.place echo] }

@[simp] theorem admitted_pending (e : Byte) (s : State) : (admitted e s).pending = s.pending := rfl
@[simp] theorem admitted_control (e : Byte) (s : State) : (admitted e s).control = s.control := rfl
@[simp] theorem admitted_geometry (e : Byte) (s : State) : (admitted e s).geometry = s.geometry := rfl
@[simp] theorem admitted_motion (e : Byte) (s : State) : (admitted e s).motion = s.motion := rfl
@[simp] theorem admitted_pages (e : Byte) (s : State) : (admitted e s).pages = s.pages := rfl
@[simp] theorem admitted_store (e : Byte) (s : State) : (admitted e s).store = s.store := rfl
@[simp] theorem admitted_rows (e : Byte) (s : State) : (admitted e s).rows = s.rows := rfl
@[simp] theorem admitted_drives (e : Byte) (s : State) : (admitted e s).drives = s.drives := rfl
@[simp] theorem admitted_ports (e : Byte) (s : State) : (admitted e s).ports = s.ports := rfl
@[simp] theorem admitted_reports (e : Byte) (s : State) : (admitted e s).reports = s.reports := rfl
@[simp] theorem admitted_link (e : Byte) (s : State) :
    (admitted e s).link =
      { s.link with receiver := none, trialOpen := false, replies := s.link.replies ++ [.place e] } := rfl

/-- What becomes of a judgement: a reply in the frame's place, or work in progress. -/
def settled (r : State × Answer) : State :=
  match r.2 with
  | .done st fields => finishWork st fields r.1
  | .working w => r.1.updateLink fun l => { l with busy := some w }

/-- A good frame that finds no request in progress is judged. -/
theorem completeFrame_taken {kind : FrameKind} {s : State} (h : Takes kind s) (echo : Byte)
    (judge : State → State × Answer) : completeFrame echo judge s = settled (judge (admitted echo s)) := by
  obtain ⟨⟨-, hroom⟩, hbusy, -⟩ := h
  simp only [completeFrame, admitFrame, hroom, if_true, State.updateLink_link, hbusy, Option.isSome_none]
  rfl

/-- A request that is taken is judged. -/
theorem takeRequest_taken {s : State} (h : Takes .request s) {params : List Byte} (hl : params.length + 1 ≤ 300)
    (code : Byte) (judge : State → State × Answer) :
    takeRequest code params judge s = settled (judge (admitted code s)) := by
  have hr := h.1.1
  have hlen : Frame.lengthInRange .request (params.length + 1) = true := by
    simp only [Frame.lengthInRange, decide_eq_true_eq]
    omega
  simp [takeRequest, hr, hlen, completeFrame_taken h]

/-- A data frame that is taken is judged. -/
theorem takeData_taken {s : State} (h : Takes .data s) {body : List Byte} (h10 : 10 ≤ body.length)
    (h8202 : body.length ≤ 8202) (judge : State → State × Answer) :
    takeData body judge s = settled (judge (admitted 0xFF s)) := by
  have hr := h.1.1
  have hlen : Frame.lengthInRange .data body.length = true := by
    simp only [Frame.lengthInRange, decide_eq_true_eq]
    omega
  simp [takeData, hr, hlen, completeFrame_taken h]

/-- A judgement that answers at once and leaves the link as it found it: the part is what it made of it, and
answered. -/
theorem settled_done {kind : FrameKind} {s t : State} (h : Takes kind s) (hlink : t.link = s.link) (echo : Byte)
    (st : Status) (fields : List Byte) :
    settled ({ t with link := (admitted echo s).link }, .done st fields) = answered echo st fields t := by
  obtain ⟨-, hbusy, hready⟩ := h
  have hhead := headReady_append_ready s.link.replies { status := st, echo := echo, fields := fields } hready
  simp [settled, finishWork, State.updateLink, beginSending_eq, fillPlace_append st fields s.link.replies [] echo
    hready, answered, replied, heard, hlink, hbusy, hhead]

/-- A judgement that answers at once and changes nothing. -/
theorem settled_reply {kind : FrameKind} {s : State} (h : Takes kind s) (echo : Byte) (st : Status)
    (fields : List Byte) :
    settled (admitted echo s, .done st fields) = answered echo st fields s :=
  settled_done (t := s) h rfl echo st fields

/-- A judgement whose work lasts. -/
theorem settled_working {s t : State} (hlink : t.link = s.link) (echo : Byte) (w : Work) :
    settled ({ t with link := (admitted echo s).link }, .working w) = undertaken echo w t := by
  simp [settled, State.updateLink, undertaken, hlink]

/-- A frame that finds a request in progress draws BUSY. -/
theorem completeFrame_busy {kind : FrameKind} {s : State} (h : Receives kind s) (hb : s.link.busy.isSome = true)
    (echo : Byte) (judge : State → State × Answer) :
    completeFrame echo judge s = replied { status := .busy, echo := echo, fields := [] } (heard s) := by
  obtain ⟨-, hroom⟩ := h
  simp only [completeFrame, admitFrame, hroom, if_true, State.updateLink_link, hb, addReply_eq]
  rfl

/-- A frame that finds the reply queue full has no effect but that the receiver hunts and a trial closes. -/
theorem completeFrame_full {s : State} (h : 32 ≤ s.link.replies.length) (echo : Byte)
    (judge : State → State × Answer) : completeFrame echo judge s = heard s := by
  have : ¬ s.link.replies.length < Config.replyPlaces := by simp [Config.replyPlaces]; omega
  simp only [completeFrame, this, if_false]
  rfl

end Sys2Proof.Machine
end

