-- ==== Sys2Proof/Laws/Memory.lean ====
section
/-! SUPPORT. Image memory: every operation keeps its canonical form, a read gives what was last written, and the list
of damaged words stays in rising order. -/

namespace Sys2Proof.Machine

/-! ### The canonical form -/

theorem Memory.risesFrom_iff (low : Nat) (m : Memory) :
    Memory.risesFrom low m = true ↔
      m.Pairwise (fun c d => c.1 < d.1) ∧ ∀ c ∈ m, low ≤ c.1 ∧ c.2 ≠ Config.unlistedByte := by
  induction m generalizing low with
  | nil => simp [Memory.risesFrom]
  | cons c m ih =>
    obtain ⟨a, v⟩ := c
    simp only [Memory.risesFrom, Bool.and_eq_true, decide_eq_true_eq, ih, List.pairwise_cons, List.mem_cons,
      forall_eq_or_imp]
    constructor
    · rintro ⟨⟨hl, hv⟩, hp, hm⟩
      exact ⟨⟨fun d hd => by have := (hm d hd).1; omega, hp⟩, ⟨hl, hv⟩, fun d hd => ⟨by have := (hm d hd).1; omega, (hm d hd).2⟩⟩
    · rintro ⟨⟨ha, hp⟩, ⟨hl, hv⟩, hm⟩
      exact ⟨⟨hl, hv⟩, hp, fun d hd => ⟨by have := ha d hd; omega, (hm d hd).2⟩⟩

theorem Memory.wf_iff (m : Memory) :
    Memory.wf m = true ↔ m.Pairwise (fun c d => c.1 < d.1) ∧ ∀ c ∈ m, c.2 ≠ Config.unlistedByte := by
  simp [Memory.wf, Memory.risesFrom_iff]

theorem Memory.run_bounds (a : Nat) (vs : List Byte) :
    ∀ c ∈ Memory.run a vs, a ≤ c.1 ∧ c.1 < a + vs.length ∧ c.2 ≠ Config.unlistedByte := by
  induction vs generalizing a with
  | nil => simp [Memory.run]
  | cons v vs ih =>
    intro c hc
    unfold Memory.run at hc
    split at hc
    · have := ih (a + 1) c hc
      simp only [List.length_cons]; exact ⟨by omega, by omega, this.2.2⟩
    · rcases List.mem_cons.mp hc with rfl | hc
      · exact ⟨by simp, by simp, ‹_›⟩
      · have := ih (a + 1) c hc
        simp only [List.length_cons]; exact ⟨by omega, by omega, this.2.2⟩

theorem Memory.run_pairwise (a : Nat) (vs : List Byte) : (Memory.run a vs).Pairwise fun c d => c.1 < d.1 := by
  induction vs generalizing a with
  | nil => simp [Memory.run]
  | cons v vs ih =>
    unfold Memory.run
    split
    · exact ih _
    · exact List.pairwise_cons.mpr ⟨fun d hd => by have := (Memory.run_bounds _ _ d hd).1; simp only; omega, ih _⟩

/-- Writing a run of bytes keeps the canonical form. -/
theorem Memory.wf_writeRun {m : Memory} (a : Nat) (vs : List Byte) (h : Memory.wf m = true) :
    Memory.wf (Memory.writeRun m a vs) = true := by
  rw [Memory.wf_iff] at *
  obtain ⟨hp, hv⟩ := h
  unfold Memory.writeRun
  refine ⟨List.pairwise_append.mpr ⟨List.pairwise_append.mpr ⟨hp.filter _, Memory.run_pairwise _ _, ?_⟩, hp.filter _, ?_⟩, ?_⟩
  · intro c hc d hd
    have h1 := (List.mem_filter.mp hc).2
    have h2 := (Memory.run_bounds _ _ d hd).1
    simp only [decide_eq_true_eq] at h1; omega
  · intro c hc d hd
    have h1 := (List.mem_filter.mp hd).2
    simp only [decide_eq_true_eq] at h1
    rcases List.mem_append.mp hc with hc | hc
    · have h2 := (List.mem_filter.mp hc).2
      simp only [decide_eq_true_eq] at h2; omega
    · have h2 := (Memory.run_bounds _ _ c hc).2.1; omega
  · intro c hc
    rcases List.mem_append.mp hc with hc | hc
    · rcases List.mem_append.mp hc with hc | hc
      · exact hv c (List.mem_filter.mp hc).1
      · exact (Memory.run_bounds _ _ c hc).2.2
    · exact hv c (List.mem_filter.mp hc).1

/-! ### Reading after writing -/

theorem Memory.read_append (m n : Memory) (x : Nat) :
    Memory.read (m ++ n) x = if m.any (fun c => c.1 = x) then Memory.read m x else Memory.read n x := by
  induction m with
  | nil => simp
  | cons c m ih =>
    obtain ⟨a, v⟩ := c
    by_cases h : a = x <;> simp [Memory.read, h, ih]

theorem Memory.read_filter (m : Memory) (p : Nat → Bool) (x : Nat) :
    Memory.read (m.filter fun c => p c.1) x = if p x then Memory.read m x else Config.unlistedByte := by
  induction m with
  | nil => simp [Memory.read]
  | cons c m ih =>
    obtain ⟨a, v⟩ := c
    by_cases hp : p a <;> by_cases hx : a = x
    · subst hx; simp [hp, Memory.read]
    · simp [hp, Memory.read, hx, ih]
    · subst hx; simp [hp, ih]
    · simp [hp, Memory.read, hx, ih]

theorem Memory.read_eq_unlisted {m : Memory} {x : Nat} (h : ∀ c ∈ m, c.1 ≠ x) :
    Memory.read m x = Config.unlistedByte := by
  induction m with
  | nil => rfl
  | cons c m ih =>
    obtain ⟨a, v⟩ := c
    simp only [Memory.read]
    rw [if_neg (h _ (List.mem_cons_self ..)), ih fun c hc => h c (List.mem_cons_of_mem _ hc)]

theorem Memory.read_run (a : Nat) (vs : List Byte) (i : Nat) (hi : i < vs.length) :
    Memory.read (Memory.run a vs) (a + i) = vs[i] := by
  induction vs generalizing a i with
  | nil => simp at hi
  | cons v vs ih =>
    cases i with
    | zero =>
      by_cases hv : v = Config.unlistedByte
      · simp only [Memory.run, hv, if_true, Nat.add_zero, List.getElem_cons_zero]
        exact Memory.read_eq_unlisted fun c hc => by have := (Memory.run_bounds _ _ c hc).1; omega
      · simp [Memory.run, hv, Memory.read]
    | succ i =>
      have key := ih (a + 1) i (by simpa using hi)
      rw [show a + 1 + i = a + (i + 1) by omega] at key
      simp only [Memory.run, List.getElem_cons_succ]
      split
      · exact key
      · simp only [Memory.read]; rw [if_neg (by omega)]; exact key

/-- A byte outside the run reads as before. -/
theorem Memory.read_writeRun_outside (m : Memory) (a : Nat) (vs : List Byte) (x : Nat)
    (h : x < a ∨ a + vs.length ≤ x) : Memory.read (Memory.writeRun m a vs) x = Memory.read m x := by
  have hrun : ∀ c ∈ Memory.run a vs, c.1 ≠ x := fun c hc => by
    have := Memory.run_bounds a vs c hc; omega
  have hany : (Memory.run a vs).any (fun c => c.1 = x) = false := by simpa using hrun
  unfold Memory.writeRun
  rw [Memory.read_append, List.any_append, hany, Bool.or_false, Memory.read_append, Memory.read_eq_unlisted hrun,
    Memory.read_filter m (fun y => decide (y < a)), Memory.read_filter m (fun y => decide (a + vs.length ≤ y))]
  rcases h with h | h
  · by_cases hm : (m.filter fun c => c.1 < a).any (fun c => c.1 = x) = true
    · simp [hm, h]
    · rw [if_neg hm, if_neg (by simp; omega)]
      refine (Memory.read_eq_unlisted fun c hc hx => hm ?_).symm
      exact List.any_eq_true.mpr ⟨c, List.mem_filter.mpr ⟨hc, by simp [hx, h]⟩, by simp [hx]⟩
  · have hm : (m.filter fun c => c.1 < a).any (fun c => c.1 = x) = false := by
      simp only [List.any_eq_false, List.mem_filter, decide_eq_true_eq]; rintro c ⟨-, hc⟩; omega
    simp [hm, h]

/-- A byte of the run reads as the byte written there. -/
theorem Memory.read_writeRun_inside (m : Memory) (a : Nat) (vs : List Byte) (i : Nat) (hi : i < vs.length) :
    Memory.read (Memory.writeRun m a vs) (a + i) = vs[i] := by
  have hlow : (m.filter fun c => c.1 < a).any (fun c => c.1 = a + i) = false := by
    simp only [List.any_eq_false, List.mem_filter, decide_eq_true_eq]; rintro c ⟨-, hc⟩; omega
  have hhigh : ∀ c ∈ m.filter (fun c => a + vs.length ≤ c.1), c.1 ≠ a + i := fun c hc => by
    have := (List.mem_filter.mp hc).2; simp only [decide_eq_true_eq] at this; omega
  unfold Memory.writeRun
  rw [List.append_assoc, Memory.read_append, hlow, if_neg (by simp), Memory.read_append, Memory.read_eq_unlisted hhigh]
  by_cases hr : (Memory.run a vs).any (fun c => c.1 = a + i) = true
  · rw [if_pos hr, Memory.read_run a vs i hi]
  · rw [if_neg hr, ← Memory.read_run a vs i hi]
    refine (Memory.read_eq_unlisted fun c hc hx => hr ?_).symm
    exact List.any_eq_true.mpr ⟨c, hc, by simp [hx]⟩

/-! ### The damaged words -/

/-- The list of damaged words is in rising order. -/
def damageRises (ds : List (Nat × Damage)) : Prop := ds.Pairwise fun c d => c.1 < d.1

theorem damageRises_setDamage {ds : List (Nat × Damage)} (w : Nat) (d : Damage) (h : damageRises ds) :
    damageRises (setDamage ds w d) := by
  unfold damageRises setDamage at *
  simp only [List.pairwise_append, List.pairwise_cons, List.mem_filter, List.mem_cons, decide_eq_true_eq]
  refine ⟨h.filter _, ⟨fun c hc => hc.2, h.filter _⟩, ?_⟩
  rintro c ⟨-, hc⟩ e (rfl | ⟨-, he⟩)
  · exact hc
  · omega

theorem damageRises_clearDamage {ds : List (Nat × Damage)} (w n : Nat) (h : damageRises ds) :
    damageRises (clearDamage ds w n) := h.filter _

theorem damageRises_applyUpsets (us : List Upset) {ds : List (Nat × Damage)} (h : damageRises ds) :
    damageRises (applyUpsets us ds) := by
  induction us generalizing ds with
  | nil => exact h
  | cons u us ih => exact ih (damageRises_setDamage _ _ h)

theorem damageOf_append (cs ds : List (Nat × Damage)) (w : Nat) :
    damageOf (cs ++ ds) w = (damageOf cs w).or (damageOf ds w) := by
  induction cs with
  | nil => rfl
  | cons c cs ih =>
    obtain ⟨a, d⟩ := c
    by_cases h : a = w <;> simp [damageOf, h, ih]

theorem damageOf_filter (ds : List (Nat × Damage)) (p : Nat → Bool) (w : Nat) :
    damageOf (ds.filter fun c => p c.1) w = if p w then damageOf ds w else none := by
  induction ds with
  | nil => simp [damageOf]
  | cons c ds ih =>
    obtain ⟨a, d⟩ := c
    by_cases hp : p a <;> by_cases hx : a = w
    · subst hx; simp [hp, damageOf]
    · simp [hp, damageOf, hx, ih]
    · subst hx; simp [hp, ih]
    · simp [hp, damageOf, hx, ih]

/-- Damage shows at the word it came to, and every other word shows what it showed. -/
theorem damageOf_setDamage (ds : List (Nat × Damage)) (w : Nat) (d : Damage) (x : Nat) :
    damageOf (setDamage ds w d) x = if x = w then some d else damageOf ds x := by
  unfold setDamage
  rw [damageOf_append, damageOf_filter ds (fun y => decide (y < w)) x]
  simp only [damageOf, damageOf_filter ds (fun y => decide (w < y)) x, decide_eq_true_eq]
  rcases Nat.lt_trichotomy x w with h | rfl | h
  · rw [if_pos h, if_neg (by omega), if_neg (by omega), if_neg (by omega), Option.or_none]
  · simp
  · have h1 : ¬ x < w := by omega
    have h2 : ¬ w = x := by omega
    have h3 : ¬ x = w := by omega
    simp [h, h1, h2, h3]

/-- Words written show no damage, and every other word shows what it showed. -/
theorem damageOf_clearDamage (ds : List (Nat × Damage)) (w n x : Nat) :
    damageOf (clearDamage ds w n) x = if w ≤ x ∧ x < w + n then none else damageOf ds x := by
  unfold clearDamage
  rw [damageOf_filter ds (fun y => decide (y < w) || decide (w + n ≤ y)) x]
  by_cases h : w ≤ x ∧ x < w + n
  · rw [if_pos h, if_neg (by simp; omega)]
  · rw [if_neg h, if_pos (by simp; omega)]

/-! ### Operations over the store -/

/-- Writing an image row keeps image memory and the list of damaged words in their canonical forms. -/
theorem writeRow_wf (slot place : Nat) (vs : List Byte) {st : Store} (hm : Memory.wf st.memory = true)
    (hd : damageRises st.damage) :
    Memory.wf (writeRow slot place vs st).memory = true ∧ damageRises (writeRow slot place vs st).damage :=
  ⟨Memory.wf_writeRun _ _ hm, damageRises_clearDamage _ _ hd⟩

theorem reset_memory_wf : Memory.wf State.reset.store.memory = true := by decide

end Sys2Proof.Machine
end

