-- ==== Sys2Proof/Laws/Ports.lean ====
section
/-! SUPPORT. The head links and the drives: who waits for a link, what its lanes carry, and what a row without a play
drives. -/

namespace Sys2Proof.Machine

/-! ### Waiting for the link (R126) -/

theorem joinWaiting_alone (l : Letter) (ws : List Requester) : joinWaiting false l ws = ws ++ [.shift l] := by
  simp [joinWaiting]

theorem joinWaiting_before_query (l : Letter) (ws : List Requester) :
    joinWaiting true l (ws ++ [.query]) = ws ++ [.shift l, .query] := by
  simp [joinWaiting]

theorem joinWaiting_behind_shift (query : Bool) (l m : Letter) (ws : List Requester) :
    joinWaiting query l (ws ++ [.shift m]) = ws ++ [.shift m, .shift l] := by
  simp [joinWaiting]

theorem mem_joinWaiting (query : Bool) (l : Letter) (ws : List Requester) (q : Requester) :
    q ∈ joinWaiting query l ws ↔ q ∈ ws ∨ q = .shift l := by
  unfold joinWaiting
  split
  · rename_i h
    obtain ⟨front, rfl⟩ := List.getLast?_eq_some_iff.mp h.2
    simp only [List.dropLast_concat, List.mem_append, List.mem_cons, List.not_mem_nil, or_false]
    tauto
  · simp

/-! ### The data lanes (R127) -/

/-- Two codes go to a clock. -/
theorem codeClocks_length : ∀ codes : List Code, (codeClocks codes).length = (codes.length + 1) / 2
  | [] => rfl
  | [_] => by simp [codeClocks]
  | a :: b :: rest => by
    have h := codeClocks_length rest
    simp only [codeClocks, List.length_cons, h]
    omega

theorem lanes_length (ex : Exchange) : ex.lanes.length = 8 + (ex.codes.length + 1) / 2 := by
  simp only [Exchange.lanes, List.length_append, List.length_map, List.length_cons, List.length_nil, codeClocks_length]

/-! ### Drives (R116) -/

@[simp] theorem driveOutput_rest (t : Nat) : driveOutput .rest t = 0 := rfl

@[simp] theorem driveConnects_rest (t i : Nat) : driveConnects .rest t i = false := rfl

theorem driveLevel_of_row {s : State} {r : RowId} {row : Row} (h : s.row r = some row) (t : Nat) :
    s.driveLevel r t = driveOutput row.drive t := by
  simp [State.driveLevel, h]

theorem connects_of_row {s : State} {r : RowId} {row : Row} (h : s.row r = some row) (t i : Nat) :
    s.connects r t i = driveConnects row.drive t i := by
  simp [State.connects, h]

end Sys2Proof.Machine
end

