-- ==== Sys2Proof/Laws/Reports.lean ====
section
/-! SUPPORT. The Report Queue: everything that posting an event can do to it, said once. -/

namespace Sys2Proof.Machine

/-- Folding keeps kinds and subjects. -/
@[simp] theorem foldReport_topics (t : Topic) (d : Detail) (q : List Report) :
    (foldReport t d q).map (·.topic) = q.map (·.topic) := by
  simp only [foldReport, List.map_map]
  exact List.map_congr_left fun r _ => by simp only [Function.comp]; split <;> rfl

@[simp] theorem ordinaryHeld_foldReport (t : Topic) (d : Detail) (q : List Report) :
    ordinaryHeld (foldReport t d q) = ordinaryHeld q := by
  induction q with
  | nil => rfl
  | cons r q ih =>
    have key : ∀ x : Report, ordinaryHeld (x :: q) = (if x.topic ≠ .overflow then 1 else 0) + ordinaryHeld q := by
      intro x; by_cases h : x.topic = .overflow <;> simp [ordinaryHeld, h, Nat.add_comm]
    have key2 : ∀ x : Report, ordinaryHeld (x :: foldReport t d q) =
        (if x.topic ≠ .overflow then 1 else 0) + ordinaryHeld (foldReport t d q) := by
      intro x; by_cases h : x.topic = .overflow <;> simp [ordinaryHeld, h, Nat.add_comm]
    rw [key, show foldReport t d (r :: q) = (if r.topic = t then
        { r with count := bump Config.top16 r.count, detail := d } else r) :: foldReport t d q from rfl, key2, ih]
    split <;> rfl

theorem bump_bounds {top n : Nat} (h1 : 1 ≤ n) (h2 : n ≤ top) : 1 ≤ bump top n ∧ bump top n ≤ top := by
  unfold bump; split <;> omega

/-- Every outcome of posting: folded into the report held, added at the tail, folded into the OVERFLOW report, or a
new OVERFLOW report at the tail (R139, R140). -/
theorem postTo_cases (pos : Nat) (t : Topic) (d : Detail) (q : List Report) :
    (q.any (fun r => r.topic = t) = true ∧ postTo pos t d q = foldReport t d q) ∨
    (q.any (fun r => r.topic = t) = false ∧ ordinaryHeld q < Config.ordinaryPlaces ∧
      postTo pos t d q = q ++ [{ topic := t, pos := pos, count := 1, detail := d }]) ∨
    (q.any (fun r => r.topic = t) = false ∧ Config.ordinaryPlaces ≤ ordinaryHeld q ∧
      q.any (fun r => r.topic = .overflow) = true ∧ postTo pos t d q = foldReport .overflow .none q) ∨
    (q.any (fun r => r.topic = t) = false ∧ Config.ordinaryPlaces ≤ ordinaryHeld q ∧
      q.any (fun r => r.topic = .overflow) = false ∧
      postTo pos t d q = q ++ [{ topic := .overflow, pos := pos, count := 1, detail := .none }]) := by
  unfold postTo
  by_cases h : q.any (fun r => r.topic = t) = true
  · exact .inl ⟨h, if_pos h⟩
  · rw [Bool.not_eq_true] at h
    by_cases ho : ordinaryHeld q < Config.ordinaryPlaces
    · exact .inr (.inl ⟨h, ho, by simp [h, ho]⟩)
    · by_cases hv : q.any (fun r => r.topic = .overflow) = true
      · exact .inr (.inr (.inl ⟨h, by omega, hv, by simp only [h, hv]; simp [ho]⟩))
      · rw [Bool.not_eq_true] at hv
        exact .inr (.inr (.inr ⟨h, by omega, hv, by simp only [h, hv]; simp [ho]⟩))

/-- A queue that has been posted to is not empty. -/
theorem postTo_ne_nil (pos : Nat) (t : Topic) (d : Detail) (q : List Report) : postTo pos t d q ≠ [] := by
  have fold : ∀ (t : Topic) (d : Detail), q ≠ [] → foldReport t d q ≠ [] := fun t d h => by simpa [foldReport] using h
  have any : ∀ f : Report → Bool, q.any f = true → q ≠ [] := fun f h => by rintro rfl; simp at h
  rcases postTo_cases pos t d q with ⟨h, e⟩ | ⟨-, -, e⟩ | ⟨-, -, h, e⟩ | ⟨-, -, -, e⟩ <;> rw [e]
  · exact fold _ _ (any _ h)
  · simp
  · exact fold _ _ (any _ h)
  · simp

/-- After a post ATTENTION is asserted. -/
@[simp] theorem post_attention (t : Topic) (d : Detail) (s : State) : (post t d s).reports.attention = true := by
  have h := postTo_ne_nil s.motion.pos t d s.reports.queue
  simpa [post] using h

end Sys2Proof.Machine
end

