-- ==== Sys2Proof/Laws/Rows.lean ====
section
/-! SUPPORT. What events at rows leave alone: one lemma per shared operation of the row channels, the Page Queue and the
Stripe Store, saying that it keeps the blocks of `RowsOnly`, the Motion Unit, and what a page record was opened with. -/

namespace Sys2Proof.Machine

/-- What a page record was opened with. -/
def Page.opening (p : Page) : Nat × Nat × Vector Bool 4 × Nat × Vector Nat 4 :=
  (p.id, p.length, p.bars, p.rows, p.expected)

/-- What an event at rows leaves alone. -/
structure RowEvent (s t : State) : Prop extends RowsOnly s t where
  motion : t.motion = s.motion
  opening : t.pages.map Page.opening = s.pages.map Page.opening
  exists_iff : ∀ r : RowId, (t.row r).isSome = (s.row r).isSome

namespace RowEvent

theorem refl (s : State) : RowEvent s s where
  pending := rfl
  control := rfl
  drives := rfl
  link := rfl
  heads := rfl
  masks := rfl
  defects := rfl
  memory := rfl
  ports := fun _ => ⟨rfl, rfl, rfl, rfl⟩
  motion := rfl
  opening := rfl
  exists_iff := fun _ => rfl

theorem trans {s t u : State} (h : RowEvent s t) (k : RowEvent t u) : RowEvent s u where
  pending := k.pending.trans h.pending
  control := k.control.trans h.control
  drives := k.drives.trans h.drives
  link := k.link.trans h.link
  heads := k.heads.trans h.heads
  masks := k.masks.trans h.masks
  defects := k.defects.trans h.defects
  memory := k.memory.trans h.memory
  ports := fun p => ⟨(k.ports p).1.trans (h.ports p).1, (k.ports p).2.1.trans (h.ports p).2.1,
    (k.ports p).2.2.1.trans (h.ports p).2.2.1, (k.ports p).2.2.2.trans (h.ports p).2.2.2⟩
  motion := k.motion.trans h.motion
  opening := k.opening.trans h.opening
  exists_iff := fun r => (k.exists_iff r).trans (h.exists_iff r)

end RowEvent

/-! ### Updates -/

theorem rowEvent_updateRow (s : State) (r : RowId) (f : Row → Row) : RowEvent s (s.updateRow r f) :=
  { RowEvent.refl s with
    exists_iff := fun q => by
      rw [State.row_updateRow]
      split
      · rename_i h; subst h; simp
      · rfl }

theorem rowEvent_updateBar (s : State) (b : BarId) (f : BarStore → BarStore) : RowEvent s (s.updateBar b f) :=
  { RowEvent.refl s with }

theorem rowEvent_post (t : Topic) (d : Detail) (s : State) : RowEvent s (post t d s) :=
  { RowEvent.refl s with }

theorem changePage_opening (id : Nat) (f : Page → Page) (hf : ∀ p, (f p).opening = p.opening) (pages : List Page) :
    (changePage id f pages).map Page.opening = pages.map Page.opening := by
  simp only [changePage, List.map_map]
  apply List.map_congr_left
  intro p _
  by_cases h : p.id = id <;> simp [h, hf]

theorem rowEvent_updatePage (s : State) (id : Nat) (f : Page → Page) (hf : ∀ p, (f p).opening = p.opening) :
    RowEvent s (s.updatePage id f) :=
  { RowEvent.refl s with opening := changePage_opening id f hf s.pages }

theorem rowEvent_releaseLink (s : State) (p : PortId) (l : Letter) (latch : Latch) :
    RowEvent s (s.updatePort p (releaseLink l latch)) :=
  { RowEvent.refl s with
    ports := fun q => by
      rw [State.port_updatePort]
      split
      · rename_i h
        subst h
        unfold releaseLink
        split <;> exact ⟨rfl, rfl, rfl, rfl⟩
      · exact ⟨rfl, rfl, rfl, rfl⟩ }

/-! ### The Stripe Store -/

theorem rowEvent_evaluateStarve (s : State) : RowEvent s (evaluateStarve s) := by
  unfold evaluateStarve enterStarve leaveStarve
  split <;> split
  · exact RowEvent.refl s
  · exact { RowEvent.refl s with }
  · exact { RowEvent.refl s with }
  · exact RowEvent.refl s

theorem rowEvent_refreshCursor (b : BarId) (s : State) : RowEvent s (refreshCursor b s) := rowEvent_updateBar s b _

theorem rowEvent_refreshCursors (s : State) : RowEvent s (refreshCursors s) :=
  (((rowEvent_refreshCursor 0 s).trans (rowEvent_refreshCursor 1 _)).trans (rowEvent_refreshCursor 2 _)).trans
    (rowEvent_refreshCursor 3 _)

theorem rowEvent_judgeRetirement (b : BarId) (s : State) : RowEvent s (judgeRetirement b s) := by
  unfold judgeRetirement
  dsimp only
  split
  · exact (rowEvent_updateBar s b _).trans (rowEvent_refreshCursor b _)
  · exact ((rowEvent_updateBar s b _).trans (rowEvent_refreshCursor b _)).trans (rowEvent_evaluateStarve _)

theorem rowEvent_judgeRetirements (bs : List BarId) (s : State) : RowEvent s (judgeRetirements bs s) := by
  induction bs generalizing s with
  | nil => exact RowEvent.refl s
  | cons b bs ih => exact (rowEvent_judgeRetirement b s).trans (ih _)

theorem rowEvent_storePageEnd (bars : Vector Bool 4) (s : State) : RowEvent s (storePageEnd bars s) :=
  ((rowEvent_judgeRetirements _ s).trans (rowEvent_refreshCursors _)).trans (rowEvent_evaluateStarve _)

theorem rowEvent_noteUncorrectable (k : ReadKey) (place word : Nat) (s : State) :
    RowEvent s (noteUncorrectable k place word s) := by
  unfold noteUncorrectable
  refine RowEvent.trans ?_ (rowEvent_post _ _ _)
  refine RowEvent.trans ?_ (rowEvent_updatePage _ k.page _ fun _ => rfl)
  exact { RowEvent.refl s with }

theorem rowEvent_readWord (k : ReadKey) (place word : Nat) (s : State) : RowEvent s (readWord k place word s).2 := by
  unfold readWord
  split
  · exact RowEvent.refl s
  · exact { RowEvent.refl s with }
  · exact rowEvent_noteUncorrectable k place word s

theorem rowEvent_readWords (k : ReadKey) (place : Nat) (ws : List Nat) (s : State) :
    RowEvent s (readWords k place ws s).2 := by
  induction ws generalizing s with
  | nil => exact RowEvent.refl s
  | cons w ws ih => exact (rowEvent_readWord k place w s).trans (ih _)

theorem rowEvent_readbackWords (n : Nat) (rb : Readback) (s : State) : RowEvent s (readbackWords n rb s).2 := by
  induction n generalizing rb s with
  | zero => exact RowEvent.refl s
  | succ n ih =>
    unfold readbackWords
    split
    · exact (rowEvent_readWord _ _ _ s).trans (ih _ _)
    · exact RowEvent.refl s

/-! ### Loads and plays -/

theorem rowEvent_placeCursor (r : RowId) (page line : Nat) (s : State) : RowEvent s (placeCursor r page line s) :=
  rowEvent_updateRow s r _

theorem rowEvent_makeIdle (r : RowId) (s : State) : RowEvent s (makeIdle r s) := rowEvent_updateRow s r _

theorem rowEvent_takeUp (r : RowId) (next : Option Page) (s : State) : RowEvent s (takeUp r next s) := by
  cases next with
  | none => exact rowEvent_makeIdle r s
  | some p => exact rowEvent_placeCursor r p.id 0 s

theorem rowEvent_takeStripe (b : BarId) (page index : Nat) (s : State) : RowEvent s (takeStripe b page index s) := by
  unfold takeStripe
  split
  · exact (rowEvent_updateBar s b _).trans (rowEvent_evaluateStarve _)
  · exact RowEvent.refl s

theorem rowEvent_noteUnderrun (b : BarId) (page line : Nat) (s : State) : RowEvent s (noteUnderrun b page line s) :=
  (rowEvent_updatePage s page (fun p => { p with flags := { p.flags with underrun := true } }) fun _ => rfl).trans
    (rowEvent_post _ _ _)

theorem rowEvent_fetchWords (n : Nat) (r : RowId) (s : State) : RowEvent s (fetchWords n r s) := by
  unfold fetchWords
  split
  · split
    · exact RowEvent.refl s
    · exact (rowEvent_readWords _ _ _ s).trans (rowEvent_updateRow _ r _)
  · exact RowEvent.refl s

theorem rowEvent_beginLoadAt (n : Nat) (r : RowId) (c : Cursor) (s : State) : RowEvent s (beginLoadAt n r c s) := by
  unfold beginLoadAt
  split
  · exact ((rowEvent_updateRow s r _).trans (rowEvent_takeStripe _ _ _ _)).trans (rowEvent_fetchWords _ _ _)
  · exact (rowEvent_updateRow s r _).trans (rowEvent_noteUnderrun _ _ _ _)

theorem rowEvent_beginLoad (n : Nat) (r : RowId) (s : State) : RowEvent s (beginLoad n r s) := by
  unfold beginLoad
  split
  · split
    · exact rowEvent_beginLoadAt n r _ s
    · exact RowEvent.refl s
  · exact RowEvent.refl s

theorem rowEvent_clearLatch (r : RowId) (s : State) : RowEvent s (clearLatch r s) := by
  unfold clearLatch
  split
  · exact RowEvent.refl s
  · exact (rowEvent_updateRow s r _).trans (rowEvent_releaseLink _ _ _ _)

theorem rowEvent_startPlay (r : RowId) (codes : List Code) (s : State) : RowEvent s (startPlay r codes s) := by
  unfold startPlay
  dsimp only
  split
  · exact (rowEvent_updateRow s r _).trans (rowEvent_post _ _ _)
  · exact rowEvent_updateRow s r _

/-! ### The fire decision -/

theorem rowEvent_judgeChangeover (b : BarId) (s : State) : RowEvent s (judgeChangeover b s) := by
  unfold judgeChangeover
  split
  · exact RowEvent.refl s
  · split
    · exact RowEvent.refl s
    · exact { RowEvent.refl s with }

theorem rowEvent_judgeChangeovers (bs : List BarId) (s : State) : RowEvent s (judgeChangeovers bs s) := by
  induction bs generalizing s with
  | nil => exact RowEvent.refl s
  | cons b bs ih => exact (rowEvent_judgeChangeover b s).trans (ih _)

theorem rowEvent_reportDone (id : Nat) (s : State) : RowEvent s (reportDone id s) := by
  unfold reportDone
  split
  · exact rowEvent_post _ _ s
  · exact RowEvent.refl s

theorem rowEvent_closePage (p : Page) (s : State) : RowEvent s (closePage p s) :=
  ((rowEvent_updatePage s p.id (fun q => { q with state := .done }) fun _ => rfl).trans
    (rowEvent_reportDone p.id _)).trans (rowEvent_storePageEnd p.bars _)

theorem rowEvent_finishPage (id : Nat) (s : State) : RowEvent s (finishPage id s) := by
  have h := rowEvent_updatePage s id (fun p => { p with rowsFinished := p.rowsFinished + 1 }) fun _ => rfl
  unfold finishPage
  dsimp only
  split
  · split
    · exact h.trans (rowEvent_closePage _ _)
    · exact h
  · exact h

theorem rowEvent_carryOut (r : RowId) (c : Cursor) (o : LineOutcome) (s : State) : RowEvent s (carryOut r c o s) := by
  cases o with
  | fired list => exact rowEvent_startPlay r list.codes s
  | dropped cause => exact (rowEvent_clearLatch r s).trans (rowEvent_post _ _ _)

theorem rowEvent_moveOn (n : Nat) (r : RowId) (c : Cursor) (s : State) : RowEvent s (moveOn n r c s) := by
  unfold moveOn
  split
  · exact rowEvent_makeIdle r s
  · split
    · exact (rowEvent_placeCursor r _ _ s).trans (rowEvent_beginLoad _ _ _)
    · exact ((rowEvent_takeUp r _ s).trans (rowEvent_finishPage _ _)).trans (rowEvent_beginLoad _ _ _)

theorem Page.count_opening (p : Page) (o : LineOutcome) : (p.count o).opening = p.opening := by
  cases o <;> rfl

theorem rowEvent_handOn (n : Nat) (r : RowId) (c : Cursor) (o : LineOutcome) (s : State) :
    RowEvent s (handOn n r c o s) :=
  (((rowEvent_updatePage s c.page (fun p => p.count o) fun p => p.count_opening o).trans
    (rowEvent_moveOn n r c _)).trans (rowEvent_judgeRetirement _ _)).trans (rowEvent_judgeChangeover _ _)

theorem rowEvent_fireDecision (n : Nat) (r : RowId) (s : State) : RowEvent s (fireDecision n r s) := by
  unfold fireDecision
  split
  · exact RowEvent.refl s
  · split
    · exact RowEvent.refl s
    · split
      · exact RowEvent.refl s
      · exact (rowEvent_carryOut r _ _ s).trans (rowEvent_handOn n r _ _ _)

theorem rowEvent_arrive (n H : Nat) (r : RowId) (s : State) : RowEvent s (arrive n H r s) := by
  unfold arrive
  split
  · exact rowEvent_fireDecision n r s
  · exact RowEvent.refl s

/-- Arrivals, in any order of rows, are events at rows. -/
theorem rowEvent_arriveAll (n H : Nat) (rs : List RowId) (s : State) : RowEvent s (arriveAll n H rs s) := by
  induction rs generalizing s with
  | nil => exact RowEvent.refl s
  | cons r rs ih => exact (rowEvent_arrive n H r s).trans (ih _)

/-! ### Page starts and ends -/

theorem rowEvent_takeUpStart (n : Nat) (p : Page) (r : RowId) (s : State) : RowEvent s (takeUpStart n p r s) := by
  unfold takeUpStart
  split
  · exact RowEvent.refl s
  · split
    · exact (rowEvent_placeCursor r _ _ s).trans (rowEvent_beginLoad _ _ _)
    · exact RowEvent.refl s

theorem rowEvent_takeUpStarts (n : Nat) (p : Page) (rs : List RowId) (s : State) :
    RowEvent s (takeUpStarts n p rs s) := by
  induction rs generalizing s with
  | nil => exact RowEvent.refl s
  | cons r rs ih => exact (rowEvent_takeUpStart n p r s).trans (ih _)

theorem rowEvent_startPage (env : Outside) (p : Page) (T S : Nat) (s : State) :
    RowEvent s (startPage env p T S s) :=
  ((rowEvent_updatePage s p.id (fun q => { q with state := .started, trigger := some T, start := some S })
    fun _ => rfl).trans (rowEvent_takeUpStarts _ p _ _)).trans (rowEvent_evaluateStarve _)

theorem rowEvent_leavePage (n id : Nat) (r : RowId) (s : State) : RowEvent s (leavePage n id r s) := by
  unfold leavePage
  split
  · exact RowEvent.refl s
  · split
    · exact ((rowEvent_clearLatch r s).trans (rowEvent_takeUp r _ _)).trans (rowEvent_beginLoad _ _ _)
    · exact RowEvent.refl s

theorem rowEvent_leavePages (n id : Nat) (rs : List RowId) (s : State) : RowEvent s (leavePages n id rs s) := by
  induction rs generalizing s with
  | nil => exact RowEvent.refl s
  | cons r rs ih => exact (rowEvent_leavePage n id r s).trans (ih _)

theorem rowEvent_abortPage (env : Outside) (p : Page) (s : State) : RowEvent s (abortPage env p s) :=
  (((((rowEvent_leavePages _ p.id _ s).trans (rowEvent_updatePage _ p.id Page.abort fun _ => rfl)).trans
    (rowEvent_storePageEnd p.bars _)).trans (rowEvent_judgeChangeovers _ _))).trans (rowEvent_reportDone p.id _)

theorem rowEvent_recoverRow (n : Nat) (r : RowId) (s : State) : RowEvent s (recoverRow n r s) :=
  (rowEvent_updateRow s r _).trans (rowEvent_beginLoad n r _)

theorem rowEvent_recoverRows (n : Nat) (rs : List RowId) (s : State) : RowEvent s (recoverRows n rs s) := by
  induction rs generalizing s with
  | nil => exact RowEvent.refl s
  | cons r rs ih => exact (rowEvent_recoverRow n r s).trans (ih _)

/-! ### Events at one row touch no other row -/

theorem evaluateStarve_rows (s : State) : (evaluateStarve s).rows = s.rows := by
  unfold evaluateStarve
  split <;> split <;> rfl

theorem judgeRetirement_rows (b : BarId) (s : State) : (judgeRetirement b s).rows = s.rows := by
  unfold judgeRetirement
  dsimp only
  split
  · rfl
  · exact evaluateStarve_rows _

theorem judgeRetirements_rows (bs : List BarId) (s : State) : (judgeRetirements bs s).rows = s.rows := by
  induction bs generalizing s with
  | nil => rfl
  | cons b bs ih => exact (ih _).trans (judgeRetirement_rows b s)

theorem storePageEnd_rows (bars : Vector Bool 4) (s : State) : (storePageEnd bars s).rows = s.rows :=
  (evaluateStarve_rows _).trans (judgeRetirements_rows _ s)

theorem readWord_rows (k : ReadKey) (place word : Nat) (s : State) : (readWord k place word s).2.rows = s.rows := by
  unfold readWord
  split <;> rfl

theorem readWords_rows (k : ReadKey) (place : Nat) (ws : List Nat) (s : State) :
    (readWords k place ws s).2.rows = s.rows := by
  induction ws generalizing s with
  | nil => rfl
  | cons w ws ih => exact (ih _).trans (readWord_rows k place w s)

theorem takeStripe_rows (b : BarId) (page index : Nat) (s : State) : (takeStripe b page index s).rows = s.rows := by
  unfold takeStripe
  split
  · exact evaluateStarve_rows _
  · rfl

theorem judgeChangeover_rows (b : BarId) (s : State) : (judgeChangeover b s).rows = s.rows := by
  unfold judgeChangeover
  split
  · rfl
  · split <;> rfl

theorem reportDone_rows (id : Nat) (s : State) : (reportDone id s).rows = s.rows := by
  unfold reportDone
  split <;> rfl

theorem finishPage_rows (id : Nat) (s : State) : (finishPage id s).rows = s.rows := by
  unfold finishPage
  dsimp only
  split
  · split
    · exact (storePageEnd_rows _ _).trans (reportDone_rows _ _)
    · rfl
  · rfl

theorem fetchWords_row_of_ne (n : Nat) {r q : RowId} (h : r ≠ q) (s : State) : (fetchWords n r s).row q = s.row q := by
  unfold fetchWords
  split
  · split
    · rfl
    · exact (State.row_updateRow_of_ne _ _ h).trans (State.row_congr (readWords_rows _ _ _ s) q)
  · rfl

theorem beginLoad_row_of_ne (n : Nat) {r q : RowId} (h : r ≠ q) (s : State) : (beginLoad n r s).row q = s.row q := by
  unfold beginLoad
  split
  · split
    · unfold beginLoadAt
      split
      · exact ((fetchWords_row_of_ne n h _).trans (State.row_congr (takeStripe_rows _ _ _ _) q)).trans
          (State.row_updateRow_of_ne s _ h)
      · exact State.row_updateRow_of_ne s _ h
    · rfl
  · rfl

theorem clearLatch_row_of_ne {r q : RowId} (h : r ≠ q) (s : State) : (clearLatch r s).row q = s.row q := by
  unfold clearLatch
  split
  · rfl
  · exact State.row_updateRow_of_ne s _ h

theorem startPlay_row_of_ne {r q : RowId} (h : r ≠ q) (codes : List Code) (s : State) :
    (startPlay r codes s).row q = s.row q := by
  unfold startPlay
  dsimp only
  split <;> exact State.row_updateRow_of_ne s _ h

theorem carryOut_row_of_ne {r q : RowId} (h : r ≠ q) (c : Cursor) (o : LineOutcome) (s : State) :
    (carryOut r c o s).row q = s.row q := by
  cases o with
  | fired list => exact startPlay_row_of_ne h _ s
  | dropped cause => exact clearLatch_row_of_ne h s

theorem takeUp_row_of_ne {r q : RowId} (h : r ≠ q) (next : Option Page) (s : State) :
    (takeUp r next s).row q = s.row q := by
  cases next <;> exact State.row_updateRow_of_ne s _ h

theorem moveOn_row_of_ne (n : Nat) {r q : RowId} (h : r ≠ q) (c : Cursor) (s : State) :
    (moveOn n r c s).row q = s.row q := by
  unfold moveOn
  split
  · exact State.row_updateRow_of_ne s _ h
  · split
    · exact (beginLoad_row_of_ne n h _).trans (State.row_updateRow_of_ne s _ h)
    · exact ((beginLoad_row_of_ne n h _).trans (State.row_congr (finishPage_rows _ _) q)).trans
        (takeUp_row_of_ne h _ s)

/-- A fire decision of one row leaves every other row as it stands (R25). -/
theorem fireDecision_row_of_ne (n : Nat) {r q : RowId} (h : r ≠ q) (s : State) :
    (fireDecision n r s).row q = s.row q := by
  unfold fireDecision
  split
  · rfl
  · split
    · rfl
    · split
      · rfl
      · exact (State.row_congr ((judgeChangeover_rows _ _).trans (judgeRetirement_rows _ _)) q).trans
          ((moveOn_row_of_ne n h _ _).trans (carryOut_row_of_ne h _ _ s))

theorem arrive_row_of_ne (n H : Nat) {r q : RowId} (h : r ≠ q) (s : State) : (arrive n H r s).row q = s.row q := by
  unfold arrive
  split
  · exact fireDecision_row_of_ne n h s
  · rfl

theorem takeUpStart_row_of_ne (n : Nat) (p : Page) {r q : RowId} (h : r ≠ q) (s : State) :
    (takeUpStart n p r s).row q = s.row q := by
  unfold takeUpStart
  split
  · rfl
  · split
    · exact (beginLoad_row_of_ne n h _).trans (State.row_updateRow_of_ne s _ h)
    · rfl

theorem leavePage_row_of_ne (n id : Nat) {r q : RowId} (h : r ≠ q) (s : State) :
    (leavePage n id r s).row q = s.row q := by
  unfold leavePage
  split
  · rfl
  · split
    · exact ((beginLoad_row_of_ne n h _).trans (takeUp_row_of_ne h _ _)).trans (clearLatch_row_of_ne h s)
    · rfl

/-! ### The order of rows -/

theorem mem_firstMentions (rs : List RowId) (r : RowId) : r ∈ firstMentions rs ↔ r ∈ rs := by
  induction rs with
  | nil => simp [firstMentions]
  | cons q qs ih =>
    by_cases h : r = q <;> simp [firstMentions, ih, h]

theorem firstMentions_nodup (rs : List RowId) : (firstMentions rs).Nodup := by
  induction rs with
  | nil => simp [firstMentions]
  | cons q qs ih => simp [firstMentions, ih.filter]

theorem mem_allRows (r : RowId) : r ∈ allRows := by
  revert r
  decide

/-- Every row is taken once, whatever order the surroundings give. -/
theorem mem_rowOrder (env : Outside) (r : RowId) : r ∈ rowOrder env := by
  simp [rowOrder, mem_firstMentions, mem_allRows]

theorem rowOrder_nodup (env : Outside) : (rowOrder env).Nodup := firstMentions_nodup _

end Sys2Proof.Machine
end

