-- ==== Sys2Proof/Tests/Slice0.lean ====
section
/-! SUPPORT. Tests: the spec's worked cases, an ill-formed command for each check of WellFormed, and a state and
operands that meet the hypotheses of each statement of Certificates/Slice0/Obligations.lean. Expected values are the
spec's own; each test names the section they stand in. -/

namespace Sys2Proof.Tests

open Sys2Proof Sys2Proof.Machine

/-! ### Ill-formed commands are refused -/

/-- A row named twice in an order of rows. -/
theorem test_wf_refuses_row_named_twice :
    (Instr.encoderChange true false { order := [3, 3], upsets := [], fetched := 0 }).wf = false := by decide

/-- An allowance that ends for no row. -/
theorem test_wf_refuses_assemblyEnd_of_no_row : (Instr.assemblyEnd 0 false false ⟨false, []⟩).wf = false := by decide

/-- The good frame of SYNC as a bad frame. -/
theorem test_wf_refuses_good_bad_frame : (Instr.badFrame .request 1 [0x11, 0xEE, 0xFF, 0x9E]).wf = false := by decide

/-- A frame whose bytes have not all arrived as a bad frame. -/
theorem test_wf_refuses_unfinished_bad_frame : (Instr.badFrame .request 1 [0x11, 0xEE, 0xFF]).wf = false := by decide

/-- Bytes after a length that is bad. -/
theorem test_wf_refuses_bytes_after_bad_length : (Instr.badFrame .request 301 [0x11]).wf = false := by decide

/-- A code of the request index as an unknown one. -/
theorem test_wf_refuses_known_code : (Instr.unknownRequest 0x20 []).wf = false := by decide

/-- A parameter block longer than a request frame holds. -/
theorem test_wf_refuses_long_block : (Instr.sync (List.replicate 300 0)).wf = false := by decide +kernel

/-- A data frame's body shorter than its piece header. -/
theorem test_wf_refuses_short_piece : (Instr.stripePiece (List.replicate 9 0)).wf = false := by decide

/-! ### Frames (section 10.1) -/

/-- The opcode table gives no row bits. -/
theorem test_decodeTableWord_has_no_rows : decodeTableWord 8 0x20 = none := by decide

/-- The four worked frames. -/
theorem test_frame_go_online :
    encodeFrame (.goOnline []) = some [0xC1, 0x01, 0x00, 0x20, 0xDF, 0xFF, 0x9E] ∧
    decodeFrame [0xC1, 0x01, 0x00, 0x20, 0xDF, 0xFF, 0x9E] = some (.goOnline []) := by decide

theorem test_frame_sync : decodeFrame [0xC1, 0x01, 0x00, 0x11, 0xEE, 0xFF, 0x9E] = some (.sync []) := by decide

theorem test_frame_set_link_rate :
    decodeFrame [0xC1, 0x02, 0x00, 0x10, 0x02, 0xEC, 0xFF, 0x9E] = some (.setLinkRate [2]) := by decide

theorem test_frame_sync_reply :
    Reply.frame { status := .ok, echo := 0x11, fields := [0] } =
      [0xE1, 0x03, 0x00, 0x00, 0x11, 0x00, 0xEC, 0xFF, 0x9E] := by decide

/-- The body byte of GO ONLINE arrives as 21h: a bad check, echoed as received. -/
theorem test_frame_bad_check :
    decodeFrame [0xC1, 0x01, 0x00, 0x21, 0xDF, 0xFF, 0x9E] =
      some (.badFrame .request 1 [0x21, 0xDF, 0xFF, 0x9E]) := by decide

/-! ### Small states -/

/-- A head of 512 nozzles at column 0 whose row A has the worked offset of 1500.25 ticks. -/
def demoHead : Head := { size := .n512, origin := 0, offsetA := 98320384, offsetB := 98877440, speed := .fast }

/-- A waveform of one step in window 1. -/
def demoWave : List WaveStep := [{ level := 180, duration := 100, window := 1 }]

/-- Bar 0 with a ring of two slots. -/
def demoBar : BarStore := { BarStore.reset with capacity := 2, nextSlot := some 0 }

/-- SETUP, ready for GO ONLINE: a head at port 0, its waveform, a ring of two slots, motion set (L = 218,453,
D = 600, G = 200). -/
def ready : State :=
  { State.reset with
    control := { State.reset.control with motionSet := true }
    geometry := { State.reset.geometry with heads := put State.reset.geometry.heads 0 (some demoHead) }
    motion := { State.reset.motion with pitch := 218453, delay := 600, gap := 200 }
    drives := { State.reset.drives with waveforms := put State.reset.drives.waveforms 0 demoWave }
    store := { State.reset.store with bars := put State.reset.store.bars 0 demoBar }
    ports := put State.reset.ports 0 { Port.reset with state := .ready } }

/-- The same part ONLINE with two idle rows. -/
def online : State :=
  { ready with
    control := { ready.control with op := .online }
    rows := put (put ready.rows 0 (some Row.fresh)) 1 (some Row.fresh) }

/-- An OPEN page of n lines on bar 0. -/
def demoPage (n : Nat) : Page where
  id := 7
  length := n
  bars := #v[true, false, false, false]
  rows := 2
  rowsFinished := 0
  state := .opened
  trigger := none
  start := none
  expected := #v[1, 0, 0, 0]
  complete := #v[0, 0, 0, 0]
  flags := { underrun := false, dropped := false, memory := false, aborted := false }
  abortMark := .notAborted
  fired := 0
  blank := 0
  dropped := { overspeed := 0, lateData := 0, transfer := 0, headFault := 0 }
  abandoned := 0

/-- Bar 0 with its cursor on stripe 0 of page 7. -/
def openedBar : BarStore := { demoBar with cursor := some { page := 7, index := 0, row := 0 } }

/-- ONLINE with page 7 of two lines OPEN and bar 0's cursor on its stripe 0. -/
def opened : State :=
  { online with
    pages := [demoPage 2]
    store := { online.store with bars := put online.store.bars 0 openedBar } }

/-- Row 0 on line 0 of page 7, waiting to fire it at 2100. -/
def firstRow : Row :=
  { Row.fresh with
    cursor := some { page := 7, line := 0 }
    fire := some 2100
    latch := .ready 0 { codes := [1, 2], blank := false } }

/-- The context of a blank line 0 of page 7 at row 1. -/
def blankContext : Context where
  row := 1
  page := 7
  line := 0
  stripe := 0
  place := 0
  phase := 0
  source := .blank
  cap := 3
  origin := 0
  nozzles := 512
  own := []
  seams := []
  image := []

/-- Row 1 on line 0 of page 7, assembling it blank. -/
def secondRow : Row :=
  { Row.fresh with
    cursor := some { page := 7, line := 0 }
    fire := some 2109
    latch := .loading 0 (.assembling blankContext) }

/-- Page 7 of two lines, started at T = 0. -/
def startedPage : Page := { demoPage 2 with state := .started, trigger := some 0, start := some 600 }

/-- The page started at T = 0: row 0 waits at 2100 with line 0 READY, row 1 at 2109 with its load assembling. -/
def printing : State :=
  { opened with
    motion := { opened.motion with pos := 2099, hwm := 2099, lockoutEnd := 207 }
    pages := [startedPage]
    rows := put (put opened.rows 0 (some firstRow)) 1 (some secondRow) }

/-- What surroundings that do nothing contribute. -/
def quiet : Outside := { order := [], upsets := [], fetched := 0 }

/-- The state a command leads to. -/
def after (c : Instr) (s : State) : State :=
  match exec c s with
  | .next t => t
  | .fault _ => s
  | .refused _ => s

/-- The reply that a command adds at the tail: status code, echo and fields. -/
def replyTo (c : Instr) (s : State) : List Byte :=
  match (after c s).link.replies.getLast? with
  | some (.ready r) => r.body
  | some (.place _) => []
  | none => []

/-! ### Worked cases, block by block -/

/-- Section 5: the fire positions of row 0 of the worked offsets, lines 0, 1, 2 and 6. -/
theorem test_fire_positions :
    firePosition 10000 98320384 0 218453 = 11500 ∧ firePosition 10000 98320384 1 218453 = 11504 ∧
    firePosition 10000 98320384 2 218453 = 11507 ∧ firePosition 10000 98320384 6 218453 = 11520 ∧
    firePosition 10000 98877440 0 218453 = 11509 := by decide

/-- Section 12: line 127 of row 3 of the run lies at 3832. -/
theorem test_fire_position_of_last_line : firePosition 1600 118538240 127 218453 = 3832 := by decide

/-- Section 2: the lockout of a page of 1000 lines is 3334 + 200 ticks, of one of 500 lines 1667 + 200. -/
theorem test_lockout_lengths : lockoutLength 1000 218453 200 = 3534 ∧ lockoutLength 500 218453 200 = 1867 := by decide

/-- Section 7: the worked scale and ceiling values. -/
theorem test_output_levels :
    outputLevel 200 115 220 = 220 ∧ outputLevel 200 115 255 = 230 ∧ outputLevel 37 50 220 = 19 ∧
    outputLevel 255 150 255 = 255 ∧ outputLevel 99 101 220 = 100 ∧ outputLevel 1 50 0 = 0 := by decide

/-- Section 7: a level limited to 255 alone is not clamped by the ceiling. -/
theorem test_clamped_by_ceiling :
    clampedByCeiling 200 115 220 = true ∧ clampedByCeiling 255 150 255 = false ∧
    clampedByCeiling 1 50 0 = true := by decide

/-- Section 5: load times of 7.28 and 23.12 microseconds (1024 nozzles), 4.72 and 12.88 (512). -/
theorem test_load_times :
    loadNs .n1024 .fast = 7280 ∧ loadNs .n1024 .slow = 23120 ∧ loadNs .n512 .fast = 4720 ∧
    loadNs .n512 .slow = 12880 := by decide

/-- Section 1: the worked list checks for a head of 1024 nozzles, check and entry. -/
theorem test_defect_list_checks :
    let judge (ds : List Defect) := entriesFailure 1024 [] ds ds
    judge [⟨10, some 11⟩, ⟨1000, none⟩] = none ∧ judge [⟨10, some 11⟩, ⟨12, some 11⟩] = some (10, 1) ∧
    judge [⟨10, some 12⟩, ⟨12, none⟩] = some (9, 0) ∧ judge [⟨10, some 10⟩] = some (8, 0) ∧
    judge [⟨10, some 11⟩, ⟨10, some 13⟩] = some (6, 1) ∧ judge [⟨1030, none⟩, ⟨5, some 5⟩] = some (5, 0) := by
  decide

/-- Section 4: sizes 400, 400, 300 and 0 are refused with check 3, capacities of 1024, 0, 0 and 0 taken. -/
theorem test_ring_size_checks :
    sizesFailure [0x90, 0x01, 0x90, 0x01, 0x2C, 0x01, 0, 0] = some 3 ∧
    sizesFailure [0x00, 0x04, 0, 0, 0, 0, 0, 0] = none := by decide

/-- Section 6.6: the row A context of port 0 for line 37, its pixels 2 at column 10, 2 at 11, 1 at 12, 1 at 998 and 3
at 1000. -/
def seamContext : Context where
  row := 0
  page := 31
  line := 37
  stripe := 0
  place := 37
  phase := 5
  source := .data 0
  cap := 3
  origin := 0
  nozzles := 1024
  own := [⟨10, some 11⟩, ⟨1000, none⟩]
  seams := [{ isLeft := true, first := 992, mask := List.replicate 8 0xFFFF ++ List.replicate 24 0,
              otherOrigin := 992, other := [] }]
  image := [0, 0, 0xA0, 0x01] ++ List.replicate 245 0 ++ [0x10, 0x03] ++ List.replicate 5 0

/-- Section 6.6, first case: nozzles 10 and 1000 are dead, 11 carries 10's pixel under the cap, 998 belongs to the
right head by the mask. -/
theorem test_codes_at_a_seam :
    seamContext.code 10 = 0 ∧ seamContext.code 11 = 3 ∧ seamContext.code 12 = 1 ∧ seamContext.code 998 = 0 ∧
    seamContext.code 1000 = 0 ∧ seamContext.owns 1000 = false := by decide

/-- Section 6.6, second case: both nozzles of column 1000 are dead, so port 0 keeps it and nozzle 998 carries its
pixel under a cap of 2. -/
theorem test_codes_without_a_yield :
    let ctx : Context := { seamContext with
      cap := 2, own := [⟨1000, some 998⟩]
      seams := seamContext.seams.map fun (sv : SeamView) => { sv with other := [⟨8, some 9⟩] } }
    ctx.owns 1000 = true ∧ ctx.code 998 = 2 ∧ ctx.code 1000 = 0 := by decide

/-- Section 10.2: codes 1, 0, 3 and 2 in one byte are B1h. -/
theorem test_pixel_packing :
    let ctx : Context := { seamContext with image := [0xB1] }
    [ctx.pixel 0, ctx.pixel 1, ctx.pixel 2, ctx.pixel 3] = [1, 0, 3, 2] := by decide

/-- Section 9.6: a second drop keeps the first position and takes the later line. -/
theorem test_report_folded :
    postTo 1905 (.lineDropped 22 3) (.drop .lateData 41)
        [{ topic := .lineDropped 22 3, pos := 1900, count := 1, detail := .drop .lateData 40 }] =
      [{ topic := .lineDropped 22 3, pos := 1900, count := 2, detail := .drop .lateData 41 }] := by decide

/-! ### Commands, one step each -/

/-- R21: (0,0) to (1,0) is a forward tick; the tick to 2100 fires row 0's line (R86). -/
theorem test_encoderChange_fires :
    ((after (.encoderChange true false quiet) printing).row 0).map (fun r => (r.cursor, r.fire)) =
      some (some { page := 7, line := 1 }, some 2104) ∧
    ((after (.encoderChange true false quiet) printing).pages.map fun p => (p.fired, p.dropped.total)) =
      [(1, 0)] := by decide +kernel

/-- R24: a reverse tick at position 0 holds it there. -/
theorem test_encoderChange_holds_at_zero :
    (after (.encoderChange false true quiet) online).motion.pos = 0 ∧
    (after (.encoderChange false true quiet) online).motion.direction = .reverse := by decide +kernel

/-- Section 2, edge 1: an accepted trigger at 2000 starts the page at 2600; the lockout of a page of 1000 lines ends
at 5534. -/
theorem test_triggerEdge_accepted :
    let s : State := { opened with pages := [demoPage 1000], motion := { opened.motion with pos := 2000, hwm := 2000 } }
    let t := after (.triggerEdge true quiet) s
    (t.motion.lastTrigger, t.motion.lockoutEnd, t.pages.map (·.start)) = (2000, 5534, [some 2600]) := by
  decide +kernel

/-- Section 2, edge 4: below HWM the cause is REVERSE, whatever the lockout. -/
theorem test_triggerEdge_rejected :
    let s : State := { opened with motion := { opened.motion with pos := 9100, hwm := 9200, lockoutEnd := 9134 } }
    (after (.triggerEdge true quiet) s).reports.queue.map (fun r => (r.topic, r.detail)) =
      [(.triggerRejected .reverse, .position 9100)] := by decide +kernel

/-- Section 10.4: BUSY, BAD FRAME and BUSY queue behind the place of GO ONLINE. -/
theorem test_replies_behind_go_online :
    (after (.fetchReport []) (after (.badFrame .request 1 [0x21, 0xDF, 0xFF, 0x9E]) (after (.readPosition [])
      (after (.goOnline []) ready)))).link.replies =
      [.place 0x20, .ready { status := .busy, echo := 0x41, fields := [] },
        .ready { status := .badFrame, echo := 0x21, fields := [3] },
        .ready { status := .busy, echo := 0x90, fields := [] }] := by decide +kernel

/-- R157: without a head GO ONLINE fails on item 1. -/
theorem test_goOnline_without_head : replyTo (.goOnline []) State.reset = [0x0C, 0x20, 1, 255] := by decide +kernel

/-- R158: the probe answered ready, the part is ONLINE with 2 row channels on bar 0. -/
theorem test_probeAnswer_goes_online :
    let st : BriefStatus := { ready := true, fault := false, warning := false, temperature := 30, parityEcho := false,
                              letter := .A, tag := 0 }
    (after (.probeAnswer 0 st quiet) (after (.goOnline []) ready)).control.op = .online ∧
    replyTo (.probeAnswer 0 st quiet) (after (.goOnline []) ready) = [0, 0x20, 2, 1] := by decide +kernel

/-- R59, R60: both rows of a page of two lines arrive in one final piece, and its stripe is COMPLETE and counted
ahead. -/
theorem test_stripePiece_completes :
    let t := after (.stripePiece ([0, 1, 7, 0, 0, 0, 0, 2, 0x55, 0] ++ 0x55 :: List.replicate 255 0)) opened
    (t.bar 0).ring.map (fun st => (st.slot, st.state, st.sum)) = [(0, .complete, 0x55)] ∧ (t.bar 0).ahead = 1 ∧
    t.store.memory = [(0, 0x55)] := by decide +kernel

/-- R61: with another sum nothing is kept and the reply is STRIPE CHECK. -/
theorem test_stripePiece_sum_differs :
    let t := after (.stripePiece ([0, 1, 7, 0, 0, 0, 0, 2, 0x54, 0] ++ 0x55 :: List.replicate 255 0)) opened
    (t.bar 0).ring = [] ∧ (t.bar 0).nextSlot = some 0 ∧
    t.link.replies.map (fun e => match e with | .ready r => r.status | .place _ => .busy) = [.stripeCheck] := by
  decide +kernel

/-- R43 to R46: an abort at 2099 abandons both lines of both rows. -/
theorem test_abortPage_counts_abandoned :
    replyTo (.abortPage [7, 0] quiet) printing = [0, 0x51, 2, 2, 4, 0, 0, 0] := by decide +kernel

/-- R126, R127: the load that waited is sent with row letter B, line tag 0 and the parity of its codes. -/
theorem test_linkGrant_sends_load :
    ((after (.linkGrant 0) (after (.assemblyEnd 0 false true ⟨false, []⟩) printing)).port 0).link =
      some { header := { kind := .load, letter := .B, nozzles := 512, tag := 0, parity := false }
             codes := List.replicate 256 0, speed := .fast } := by decide +kernel

/-! ### States and operands that meet the hypotheses of the statements -/

/-- A part whose link is as reset left it takes frames of both kinds. -/
theorem takes_of_reset_link (kind : FrameKind) {s : State} (h : s.link = State.reset.link) : Takes kind s := by
  unfold Takes Receives
  rw [h]
  cases kind <;> decide

/-- A command that answers a next state. -/
def Answers (c : Instr) (s : State) : Prop := ∃ t, exec c s = .next t

theorem witness_StepRunsFrontCommand : State.reset.pending = [] := rfl

/-- The printing part with a forward tick waiting. -/
def waiting : State := { printing with pending := [.encoderChange true false quiet] }

theorem step_waiting_answers : ∃ t, step waiting = .next t := ⟨_, rfl⟩

theorem pages_waiting : ∀ p ∈ waiting.pages, p.length = 2 := by decide +kernel

theorem witness_StepsKeepMotionOk : MotionOk waiting :=
  { pos_le_hwm := by decide, hwm_le := by decide, trigger_le := by decide, lockout_le := by decide
    errors_le := by decide, pitch := by decide, delay := by decide, gap := by decide
    lengths := fun p h => by rw [pages_waiting p h]; decide }

theorem witness_StepsKeepOperatingOk : OperatingOk waiting :=
  { work := by decide, slowdown := by decide, starve_online := by decide, pages_online := by decide
    rows_exist := by decide +kernel }

/-- Row 0 at line 0 of page 7 with no line decided yet, and row 1 too: 0 lines fired and dropped. -/
theorem pageOk_startedPage : PageOk waiting startedPage where
  rows := by decide +kernel
  rows_pos := by decide
  expected := by decide
  blank_le := by decide
  dropped_flag := by decide
  aborted_flag := by decide
  triggered := by decide
  opened h := absurd h (by decide)
  started _ := by decide +kernel
  done h := absurd h (by decide)
  timed T h := by cases h; decide

theorem pagesOk_waiting : PagesOk waiting where
  length_le := by decide
  ids_distinct := by decide
  opened_last := List.pairwise_singleton _ _
  apart := List.pairwise_singleton _ _
  records p h := by cases List.mem_singleton.mp h; exact pageOk_startedPage

theorem witness_StepsKeepReportsOk : ReportsOk (post .linkReverted .none waiting) :=
  { length_le := by decide, ordinary_le := by decide, topics_distinct := by decide, counts := by decide
    attention := by decide }

theorem witness_StepsKeepMemoryOk :
    MemoryOk { waiting with store := { waiting.store with memory := [(0, 1), (67108863, 255)],
                                                          damage := [(3, .oneWrongBit), (8388607, .uncorrectable)] } } :=
  { canonical := by decide, rising := by decide }

theorem witness_StepsKeepLinkOk : LinkOk (after (.goOnline []) ready) :=
  { length_le := by decide +kernel, one_place := by decide +kernel, sending_iff := by decide +kernel }

theorem rows_waiting : ∀ r, ∀ row ∈ waiting.row r, (r = 0 ∧ row = firstRow) ∨ (r = 1 ∧ row = secondRow) := by
  decide +kernel

theorem links_waiting : ∀ p, (waiting.port p).link = none ∧ (waiting.port p).waiting = [] := by decide +kernel

/-- Rows 0 and 1 on line 0 of page 7, whose fire positions are 2100 and 2109, above HWM 2099. -/
theorem working_at_line_zero {s : State} (hp : s.pages = [startedPage]) (hm : s.motion = printing.motion)
    (hg : s.geometry = printing.geometry) (r : RowId) (row : Row) (c : Cursor) (hc : row.cursor = some c)
    (h0 : row.cursor = some { page := 7, line := 0 })
    (hr : r = 0 ∧ row.fire = some 2100 ∨ r = 1 ∧ row.fire = some 2109) :
    ∃ p ∈ s.pages, ∃ start, CursorOk s r row c p start := by
  obtain rfl : c = { page := 7, line := 0 } := Option.some.inj (hc.symm.trans h0)
  refine ⟨startedPage, hp ▸ List.mem_singleton_self _, 600, ?_⟩
  rcases hr with ⟨rfl, hf⟩ | ⟨rfl, hf⟩
  · exact { named := by decide, started := by decide, bar := by decide, line := by decide, begun := by decide
            fire := by rw [hf, hm, hg]; decide +kernel, ahead := by rw [hm, hg]; decide +kernel }
  · exact { named := by decide, started := by decide, bar := by decide, line := by decide, begun := by decide
            fire := by rw [hf, hm, hg]; decide +kernel, ahead := by rw [hm, hg]; decide +kernel }

theorem rowsOk_waiting : RowsOk waiting where
  working r row c h hc := by
    rcases rows_waiting r row h with ⟨rfl, rfl⟩ | ⟨rfl, rfl⟩
    · exact working_at_line_zero (s := waiting) rfl rfl rfl _ _ _ hc rfl (.inl ⟨rfl, rfl⟩)
    · exact working_at_line_zero (s := waiting) rfl rfl rfl _ _ _ hc rfl (.inr ⟨rfl, rfl⟩)
  served := by decide +kernel
  rows r row h := by
    rcases rows_waiting r row h with ⟨rfl, rfl⟩ | ⟨rfl, rfl⟩
    · exact { fire_iff := by decide, tagged := fun k h => by simpa [firstRow, Latch.line?] using h
              unready_empty := by decide, loaded := by decide, offline_idle := by decide, errors_le := by decide
              errors_limit := by decide, waits_iff := by decide
              shifts_iff := fun k => by simp [links_waiting, carriedLoad, firstRow, Latch.shifting?] }
    · exact { fire_iff := by decide, tagged := fun k h => by simpa [secondRow, Latch.line?] using h
              unready_empty := by decide, loaded := by decide, offline_idle := by decide, errors_le := by decide
              errors_limit := by decide, waits_iff := by decide
              shifts_iff := fun k => by simp [links_waiting, carriedLoad, secondRow, Latch.shifting?] }
  carried p l tag h := by simp [links_waiting, carriedLoad] at h
  waiting p l h := by simp [links_waiting] at h
  waiting_once p := by simp [links_waiting]
  clearing p stage h := by have : waiting.link.busy = none := rfl; rw [this] at h; cases h

theorem witness_StepsKeepRowsOk :
    OperatingOk waiting ∧ MotionOk waiting ∧ PagesOk waiting ∧ RowsOk waiting ∧ ∃ t, step waiting = .next t :=
  ⟨witness_StepsKeepOperatingOk, witness_StepsKeepMotionOk, pagesOk_waiting, rowsOk_waiting, step_waiting_answers⟩

theorem witness_StepsKeepPagesOk :
    OperatingOk waiting ∧ MotionOk waiting ∧ RowsOk waiting ∧ PagesOk waiting ∧ ∃ t, step waiting = .next t :=
  ⟨witness_StepsKeepOperatingOk, witness_StepsKeepMotionOk, rowsOk_waiting, pagesOk_waiting, step_waiting_answers⟩

/-- The first of the two rows of page 7's stripe, as a piece of one row. -/
def pieceBody (first : Byte) (final : Byte) : List Byte := [0, final, 7, 0, 0, 0, first, 1, 0, 0] ++ List.replicate 128 0

/-- The record of page 7's stripe once row 0 is stored. -/
def halfStripe : Stripe where
  page := 7
  index := 0
  rows := 2
  slot := 0
  received := 1
  state := .filling
  sum := 0
  taken := false
  retired := false
  released := false

/-- Bar 0 with a record of page 7's stripe in its first slot, the cursor on the row after those received. -/
def fillingBar (st : Stripe) : BarStore :=
  { openedBar with ring := [st], nextSlot := some 1, cursor := some { page := 7, index := 0, row := st.received } }

/-- `opened` once row 0 of the stripe is stored. -/
def half : State := { opened with store := { opened.store with bars := put opened.store.bars 0 (fillingBar halfStripe) } }

/-- `half` with the final piece of the stripe waiting. -/
def filling : State := { half with pending := [.stripePiece (pieceBody 1 1)] }

theorem pagesOk_filling : PagesOk filling where
  length_le := by decide
  ids_distinct := by decide
  opened_last := List.pairwise_singleton _ _
  apart := List.pairwise_singleton _ _
  records p h := by
    cases List.mem_singleton.mp h
    exact { rows := by decide +kernel, rows_pos := by decide, expected := by decide, blank_le := by decide
            dropped_flag := by decide, aborted_flag := by decide, triggered := by decide
            opened := by decide, started := fun h => absurd h (by decide), done := fun h => absurd h (by decide)
            timed := fun T h => by cases h }

theorem rings_filling : ∀ b, (filling.bar b).ring = if b = 0 then [halfStripe] else [] := by decide +kernel

/-- A ring of at most one record has no two in a row. -/
theorem no_two_filling {b : BarId} {front back : List Stripe} {x y : Stripe}
    (h : (filling.bar b).ring = front ++ x :: y :: back) : False := by
  rw [rings_filling b] at h
  have := congrArg List.length h
  split at this <;> simp at this
  omega

theorem storeOk_filling : StoreOk filling where
  capacities := by decide
  rings_online := by decide +kernel
  bars b :=
    { length_le := by revert b; decide +kernel, threshold_le := by revert b; decide +kernel
      next_slot := by revert b; decide +kernel
      next_in_run := by unfold inRun; revert b; decide +kernel
      slots_in_run := by unfold inRun; revert b; decide +kernel
      slots_follow := fun _ _ _ _ h => (no_two_filling h).elim
      next_follows := fun front x h => by
        have := congrArg List.getLast? h
        rw [rings_filling b] at this
        split at this
        · rename_i hb
          subst hb
          obtain rfl : halfStripe = x := by simpa using this
          decide +kernel
        · simp at this
      slots_distinct := by revert b; decide +kernel
      newest_fills := by revert b; decide +kernel
      ordered := by
        rw [rings_filling b]
        split
        · exact List.pairwise_singleton _ _
        · exact List.Pairwise.nil
      counts := by revert b; decide +kernel, cursor := by revert b; decide +kernel
      ahead := by revert b; decide +kernel
      stripes := fun st h => by
        rw [rings_filling b] at h
        split at h
        · rename_i hb
          subst hb
          cases List.mem_singleton.mp h
          exact { paged := fun _ => ⟨demoPage 2, List.mem_singleton_self _, by decide⟩
                  settled := by decide +kernel, released_retired := by decide, complete := by decide
                  filling := by decide +kernel, sum_lt := by decide }
        · cases h }

theorem witness_StepsKeepStoreOk :
    OperatingOk filling ∧ PagesOk filling ∧ StoreOk filling ∧ ∃ t, step filling = .next t :=
  ⟨{ work := by decide, slowdown := by decide, starve_online := by decide, pages_online := by decide
     rows_exist := by decide +kernel }, pagesOk_filling, storeOk_filling, ⟨_, rfl⟩⟩

theorem heads_waiting : ∀ p, ∀ h ∈ entry waiting.geometry.heads p, h = demoHead := by decide +kernel

theorem witness_StepsKeepTablesOk : TablesOk waiting where
  heads p h hh := by rw [heads_waiting p h hh]; decide
  defects p h hh := by
    have : ∀ p, entry waiting.geometry.defects p = [] := by decide +kernel
    rw [this p]
    constructor <;> simp
  defects_none p _ := by revert p; decide +kernel
  masks b i m h := by
    have : ∀ b i, entry (entry waiting.geometry.masks b) i = none := by decide +kernel
    rw [this b i] at h; cases h
  waveforms b := by
    have : entry waiting.drives.waveforms b = demoWave ∨ entry waiting.drives.waveforms b = [] := by
      revert b; decide +kernel
    rcases this with h | h <;> rw [h]
    · exact { length_le := by decide, durations := by decide, reaches := by decide }
    · exact { length_le := by decide, durations := by decide, reaches := by decide }
  scales b := by revert b; decide +kernel
  caps b := by revert b; decide +kernel

/-- SET GUARD with a ceiling of 254 is neither of the commands that loosen a field. -/
theorem witness_GuardOnlyTightens :
    (∀ a b g, Instr.setGuard [254, 3, 3, 3, 3, 0, 0, 0] ≠ .powerOnReset a b g) ∧
    (∀ ps, Instr.setGuard [254, 3, 3, 3, 3, 0, 0, 0] ≠ .releaseGuard ps) ∧
    Answers (.setGuard [254, 3, 3, 3, 3, 0, 0, 0]) State.reset := by
  refine ⟨?_, ?_, ⟨_, rfl⟩⟩ <;> intros <;> simp

theorem witness_TablesFixedOutsideSetup :
    (∀ a b g, Instr.setMotion [] ≠ .powerOnReset a b g) ∧ online.control.op ≠ .setup ∧
    Answers (.setMotion []) online := ⟨by intros; simp, by decide, ⟨_, rfl⟩⟩

theorem witness_OnlyPiecesWriteImageMemory :
    (∀ body, Instr.assemblyEnd 0 true true ⟨false, [⟨0, 0, 0, .uncorrectable⟩]⟩ ≠ .stripePiece body) ∧
    Answers (.assemblyEnd 0 true true ⟨false, [⟨0, 0, 0, .uncorrectable⟩]⟩) printing ∧
    (damageOf [(3, Damage.oneWrongBit)] 3).isSome = true := ⟨by intros; simp, ⟨_, rfl⟩, by decide⟩

/-- A hunting receiver, one inside a frame, and a frame of each kind of badness. -/
theorem witness_ReceiverOutcomes :
    State.reset.link.receiver = none ∧ (after (.startMark .data) State.reset).link.receiver ≠ none ∧
    canReceive State.reset.link .data = true ∧ Frame.judge .request (0 : BitVec 16).toNat [] = .bad .length ∧
    Frame.judge .data (8203 : BitVec 16).toNat [] = .bad .length ∧
    Frame.judge .request (1 : BitVec 16).toNat [0x11, 0xEE, 0xFF, 0x9F] = .bad .endMark ∧
    Frame.judge .request (1 : BitVec 16).toNat [0x21, 0xDF, 0xFF, 0x9E] = .bad .check := by decide

theorem witness_DecodeOfEncodeFrame :
    (Instr.abortPage [7, 0] quiet).wf = true ∧ (∃ bytes, encodeFrame (.abortPage [7, 0] quiet) = some bytes) ∧
    (∃ bytes, encodeFrame (.stripePiece (List.replicate 10 0)) = some bytes) := ⟨by decide, ⟨_, rfl⟩, ⟨_, rfl⟩⟩

/-- A part with these entries in its reply queue. -/
def withReplies (entries : List ReplyEntry) (sending : Option LinkRate) (sw : Option PendingSwitch) : State :=
  { State.reset with link := { State.reset.link with replies := entries, sending := sending, switch := sw } }

/-- A reply to SYNC. -/
def syncReply : Reply := { status := .ok, echo := 0x11, fields := [0] }

/-- A request in progress with room behind it, a full queue, bodies of the shortest and the longest length, and the
place of GO ONLINE at the head. -/
theorem witness_ReplyQueueEntries :
    let s := after (.goOnline []) ready
    let full := withReplies (List.replicate 32 (.ready syncReply)) (some .r1250) none
    Receives .request s ∧ Receives .data s ∧ s.link.busy.isSome = true ∧ s.link.replies = [] ++ .place 0x20 :: [] ∧
    canReceive full.link .request = true ∧ canReceive full.link .data = true ∧ 32 ≤ full.link.replies.length ∧
    (List.replicate 10 (0 : Byte)).length = 10 ∧ (List.replicate 8202 (0 : Byte)).length = 8202 := by
  refine ⟨by unfold Receives; decide +kernel, by unfold Receives; decide +kernel, by decide +kernel,
    by decide +kernel, by decide, by decide, by decide, List.length_replicate, List.length_replicate⟩

/-- A reply being sent, with no switch pending and with one at each of its stages. -/
theorem witness_ReplySentAndRateSwitch :
    let at_ (sw : Option PendingSwitch) := withReplies [.ready syncReply] (some .r1250) sw
    (∀ sw, (at_ sw).link.sending = some .r1250 ∧ (at_ sw).link.replies = .ready syncReply :: [] ∧
      (at_ sw).link.switch = sw) ∧
    (at_ (some { rate := .r5000, wait := .own (0 + 2) })).link.switch = some { rate := .r5000, wait := .own 2 } ∧
    (withReplies [.ready syncReply, .place 0x80] (some .r1250) none).link.replies =
      .ready syncReply :: [.place 0x80] := ⟨fun _ => ⟨rfl, rfl, rfl⟩, rfl, rfl⟩

theorem witness_RateSetAndReverted :
    Takes .request State.reset ∧ LinkRate.r1250.code = 0 ∧ LinkRate.r5000.code = 2 ∧
    State.reset.link.trialOpen = false ∧
    { State.reset with link := { State.reset.link with trialOpen := true } }.link.trialOpen = true :=
  ⟨takes_of_reset_link _ rfl, rfl, rfl, rfl, rfl⟩

theorem witness_ReadingRequestsAnswer :
    Takes .request printing ∧ (∃ p, printing.pages = [] ++ p :: [] ∧ p.id < 65536) ∧ (0x23 : Byte) ∉ requestCodes :=
  ⟨takes_of_reset_link _ rfl, ⟨_, rfl, by decide⟩, by decide⟩

/-- `ready` with another head at port 0 and one at port 1. -/
def withHeads (a b : Head) : State :=
  { ready with geometry := { ready.geometry with heads := put (put ready.geometry.heads 0 (some a)) 1 (some b) } }

/-- Two heads of bar 0 of 512 nozzles, the second at `origin`, with a mask of `width` columns in the first slot. -/
def pair (origin width : Nat) : Geometry :=
  { (withHeads demoHead { demoHead with origin := origin }).geometry with
    masks := put State.reset.geometry.masks 0 (put (entry State.reset.geometry.masks 0) 0
      (some { columns := List.replicate width 0x5555 })) }

theorem consecutive_pair (origin width : Nat) :
    Consecutive (pair origin width) 0 1 demoHead { demoHead with origin := origin } where
  bar := by decide
  before := by decide
  left := rfl
  right := rfl
  between z h k := by
    simp only [Fin.lt_def] at h k
    omega

/-- Overlaps of 65 columns, of 64 with a mask of 64 and of 63 columns, of none, and a gap of one column. -/
theorem witness_GoOnlineTaken_layout :
    layoutOk (pair 447 64) 0 = false ∧ layoutOk (pair 448 64) 0 = true ∧ masksOk (pair 448 64) 0 = true ∧
    masksOk (pair 448 63) 0 = false ∧ layoutOk (pair 512 1) 0 = true ∧ masksOk (pair 512 1) 0 = true ∧
    layoutOk (pair 513 1) 0 = false ∧ headsBelow (pair 448 64) 0 = 0 ∧ hasHeads (pair 448 64) 0 = true ∧
    hasHeads (pair 448 64) 1 = false := by decide +kernel

/-- Every item passed; and for each of items 1 to 6 a part that fails it first, layout and masks at bar 0. -/
theorem witness_GoOnlineTaken :
    Takes .request ready ∧ ready.control.op = .setup ∧ configFailure ready = none ∧
    entry ready.geometry.heads 0 = some demoHead ∧ configFailure State.reset = some (1, 255) ∧
    configFailure (withHeads { demoHead with origin := 1 } demoHead) = some (2, 0) ∧
    configFailure (withHeads demoHead { demoHead with origin := 511 }) = some (3, 0) ∧
    configFailure { ready with drives := State.reset.drives } = some (4, 0) ∧
    configFailure { ready with store := State.reset.store } = some (5, 0) ∧
    configFailure { ready with control := State.reset.control } = some (6, 255) :=
  ⟨takes_of_reset_link _ rfl, by decide +kernel⟩

/-- The answer of a sound head to an exchange with row letter A and tag 0. -/
def soundAnswer : BriefStatus where
  ready := true
  fault := false
  warning := false
  temperature := 30
  parityEcho := false
  letter := .A
  tag := 0

/-- A probe out on port 0, the last defined port, and with a head at port 1 behind it. -/
theorem witness_GoOnlineProbeOutcome :
    let s := after (.goOnline []) ready
    let two := after (.goOnline []) (withHeads demoHead { demoHead with origin := 512 })
    s.link.busy = some (.goOnline 0) ∧ ((s.port 0).link.map fun ex => ex.header.kind) = some .probe ∧
    soundAnswer.letter = .A ∧ soundAnswer.tag = 0 ∧ (∀ q : PortId, 0 < q → entry s.geometry.heads q = none) ∧
    two.link.busy = some (.goOnline 0) ∧ ((two.port 0).link.map fun ex => ex.header.kind) = some .probe ∧
    entry two.geometry.heads 1 = some { demoHead with origin := 512 } := by decide +kernel

/-- GO OFFLINE and CLEAR taken while printing; a drain with every drive at REST and one with a drive PLAYING. -/
theorem witness_DrainingBeginsAndEnds :
    Takes .request printing ∧ printing.control.op = .online ∧
    (after (.goOffline []) printing).link.busy = some (.drain false 1) ∧
    (∀ r, ∀ row ∈ (after (.goOffline []) printing).row r, row.drive = .rest) ∧
    (after (.clear []) (after (.encoderChange true false quiet) printing)).link.busy = some (.drain true 1) ∧
    ∃ row ∈ (after (.clear []) (after (.encoderChange true false quiet) printing)).row 0, row.drive ≠ .rest :=
  ⟨takes_of_reset_link _ rfl, by decide +kernel⟩

theorem witness_ClearInSetup : Takes .request ready ∧ ready.control.op = .setup :=
  ⟨takes_of_reset_link _ rfl, by decide +kernel⟩

/-- DEFINE and UNDEFINE of port 15 at the ends of the ranges, and masks of 0 and of 64 columns. -/
theorem witness_HeadsAndMasksLoaded :
    let ps : List Byte := [15, 1] ++ leBytes 2 1024 ++ leBytes 2 4095 ++ leBytes 6 1099511627775 ++ leBytes 6 0 ++ [1]
    Takes .request ready ∧ ready.control.op = .setup ∧ ready.control.guard.mapLock = false ∧
    readHeadParams ps = { port := 15, use := 1, nozzles := HeadSize.n1024.count, origin := 4095,
                          offsetA := 1099511627775, offsetB := 0, speed := 1 } ∧
    ps.length = 19 ∧ (readHeadParams [15, 0]).port = 15 ∧ (readHeadParams [15, 0]).use = 0 ∧
    ([] : List (BitVec 16)).length ≤ 64 ∧ (List.replicate 64 (0 : BitVec 16)).length ≤ 64 :=
  ⟨takes_of_reset_link _ rfl, by decide +kernel⟩

/-- Two heads of bar 0, which is 960 columns wide, and no head of bar 1. -/
theorem witness_HeadsAndMasksLoaded_derived :
    definedHeads (pair 448 64) 0 = [(0, demoHead), (1, { demoHead with origin := 448 })] ∧
    barWidth (pair 448 64) 0 = 960 ∧ barWidth (pair 448 64) 1 = 0 ∧
    (∀ p : PortId, barOf p = 1 → entry (pair 448 64).heads p = none) := by decide +kernel

/-- `printing` with a changeover open for bar 0. -/
def changing : State :=
  let co : Changeover := { port := 0, held := [], page := 7, line := 0, start := 600 }
  { printing with
    geometry := { printing.geometry with changeovers := put printing.geometry.changeovers 0 (some co) } }

/-- The list (10, 11) for port 0: with MAP LOCK set, with a changeover open, in SETUP, ONLINE with idle rows, and with
rows at work, whose leading line is line 0 of page 7. -/
theorem witness_DefectListTaken :
    let ps : List Byte := [0, 1, 10, 0, 1, 11, 0]
    Takes .request ready ∧ Takes .request changing ∧ ps.length ≤ 299 ∧ 2 ≤ ps.length ∧ fieldAt ps 0 1 = 0 ∧
    fieldAt ps 1 1 = 1 ∧ readDefects 1 (ps.drop 2) = some [⟨10, some 11⟩] ∧
    (setGuardRecord { Guard.loosest with mapLock := true } ready).control.guard.mapLock = true ∧
    (entry changing.geometry.changeovers (barOf 0)).isSome = true ∧ entry printing.geometry.heads 0 = some demoHead ∧
    (∀ r, ∀ row ∈ online.row r, row.cursor = none) ∧ leadingLine printing (barOf 0) = some (7, 0, 600) :=
  ⟨takes_of_reset_link _ rfl, takes_of_reset_link _ rfl, by decide +kernel⟩

theorem witness_DefectListTaken_list : DefectsOk demoHead.size.count [⟨10, some 11⟩] where
  length_le := by decide
  below := by decide
  dead_once := by decide
  helper_live := by decide
  helper_once := by simp

/-- Each class of change; positions at 0, below HWM, and at the top of the range. -/
theorem witness_TicksWithoutNewGround :
    State.reset.control.op ≠ .online ∧ online.control.op = .online ∧ classify online.motion false false = none ∧
    classify online.motion true true = some .illegal ∧ classify online.motion false true = some .reverse ∧
    classify online.motion true false = some .forward ∧
    { online.motion with hwm := 1 }.pos < { online.motion with hwm := 1 }.hwm := by decide

/-- The tick to 2100. -/
theorem witness_NewGroundAdvance :
    printing.control.op = .online ∧ classify printing.motion true false = some .forward ∧
    printing.motion.pos = printing.motion.hwm ∧ printing.motion.hwm < 281474976710655 ∧
    (printing.row 1).bind (·.fire) ≠ some (printing.motion.hwm + 1) := by decide +kernel

/-- Row 0 alone receives the arrival at 2100; its port is READY or FAULT, its drive at REST or PLAYING, its latch
READY, LOADING or failed. -/
theorem witness_FireDecisionOutcomes :
    printing.row 0 = some firstRow ∧ firstRow.cursor = some { page := 7, line := 0 } ∧
    firstRow.fire = some (printing.motion.hwm + 1) ∧
    (∀ q : RowId, q ≠ 0 → (printing.row q).bind (·.fire) ≠ some (printing.motion.hwm + 1)) ∧
    (printing.pages.map (·.id)).Nodup ∧ printing.pages = [] ++ startedPage :: [] ∧ startedPage.state = .started ∧
    (∀ x : BarId, ∀ st ∈ (printing.bar x).ring.dropLast, st.state = .complete) ∧
    judgeLine false firstRow = some (.fired { codes := [1, 2], blank := false }) ∧
    judgeLine false secondRow = some (.dropped .lateData) ∧
    judgeLine false { firstRow with latch := .failed 0 } = some (.dropped .transfer) ∧
    judgeLine false { firstRow with drive := .playing { steps := [], codes := [] } } = some (.dropped .overspeed) ∧
    judgeLine true firstRow = some (.dropped .headFault) := by decide +kernel

/-- Row 0 on the last line of page 7, which row 1 has finished, with the page's stripe COMPLETE in the ring, a changeover
of the bar up to line 0, and a ceiling of 100. -/
def lastLine : State :=
  let row : Row :=
    { firstRow with
      cursor := some { page := 7, line := 1 }, fire := some 2104, latch := .ready 1 { codes := [3], blank := true } }
  { changing with
    control := { changing.control with guard := { changing.control.guard with ceiling := 100 } }
    motion := { changing.motion with pos := 2103, hwm := 2103 }
    pages := [{ startedPage with rowsFinished := 1, fired := 3, complete := #v[1, 0, 0, 0] }]
    rows := put (put changing.rows 0 (some row)) 1 (some Row.fresh)
    store := { changing.store with
      bars := put changing.store.bars 0
        { fillingBar { halfStripe with state := .complete, received := 2 } with cursor := none } } }

/-- The tick to 2104 fires the page's last line: the page is DONE, its stripe leaves the ring, the changeover closes, and
DRIVE CLAMPED with the 180 requested and PAGE DONE are posted, in that order. -/
theorem witness_FireDecisionOutcomes_last_line :
    let t := after (.encoderChange true false quiet) lastLine
    (lastLine.row 0).map (fun row => (row.cursor, row.fire)) = some (some { page := 7, line := 1 }, some 2104) ∧
    (∀ q : RowId, q ≠ 0 → (lastLine.row q).bind (·.fire) ≠ some (lastLine.motion.hwm + 1)) ∧
    (∀ x : BarId, ∀ st ∈ (lastLine.bar x).ring.dropLast, st.state = .complete) ∧
    (entry lastLine.geometry.changeovers 0).isSome = true ∧
    t.pages.map (fun p => (p.state, p.rowsFinished, p.fired, p.blank)) = [(.done, 2, 4, 1)] ∧
    (t.bar 0).ring = [] ∧ entry t.geometry.changeovers 0 = none ∧
    t.reports.queue.map (fun r => (r.topic, r.detail)) =
      [(.driveClamped 0, .level 180),
        (.pageDone 7, .page { underrun := false, dropped := false, memory := false, aborted := false } .notAborted)] := by
  decide +kernel

/-- Row 0's load still assembles at 2100: LINE DROPPED with LATE DATA and line 0, and the page's DROPPED flag; row 1,
still at line 0, keeps the changeover open. -/
theorem witness_FireDecisionOutcomes_drop :
    let late : State := changing.updateRow 0 fun row => { row with latch := secondRow.latch }
    let t := after (.encoderChange true false quiet) late
    t.reports.queue = [{ topic := .lineDropped 7 0, pos := 2100, count := 1, detail := .drop .lateData 0 },
      { topic := .underrun 7 0, pos := 2100, count := 1, detail := .line 1 }] ∧
    t.pages.map (fun p => (p.flags.dropped, p.dropped.lateData)) = [(true, 1)] ∧
    entry t.geometry.changeovers 0 = entry changing.geometry.changeovers 0 := by decide +kernel

/-- Page 7's stripe where the page is OPEN, DONE, STARTED with rows at its last line, and with every row past it. -/
theorem witness_FireDecisionOutcomes_due :
    let st : Stripe := { halfStripe with state := .complete, received := 2 }
    let at_ (line : Nat) : State := printing.updateRow 0 fun row => { row with cursor := some { page := 7, line := line } }
    let past (line : Nat) : State :=
      (at_ line).updateRow 1 fun row => { row with cursor := some { page := 7, line := line } }
    retirementDue opened 0 st = false ∧
    retirementDue { opened with pages := [{ demoPage 2 with state := .done }] } 0 st = true ∧
    retirementDue (past 1) 0 st = false ∧ retirementDue (at_ 2) 0 st = false ∧ retirementDue (past 2) 0 st = true := by
  decide +kernel

theorem witness_SetMotionAccepted : Takes .request ready ∧ ready.control.op = .setup ∧ Takes .request online ∧
    online.control.op = .online :=
  ⟨takes_of_reset_link _ rfl, by decide, takes_of_reset_link _ rfl, by decide⟩

/-- A rising edge below HWM, at HWM before the lockout end, and after it with no page OPEN. -/
theorem witness_TriggerEdgesWithoutPage :
    online.control.op = .online ∧ online.motion.triggerEdge = .rising ∧ online.motion.triggerLevel = false ∧
    { online.motion with hwm := 1 }.pos < { online.motion with hwm := 1 }.hwm ∧
    { online.motion with lockoutEnd := 1 }.hwm < { online.motion with lockoutEnd := 1 }.lockoutEnd ∧
    online.motion.pos = online.motion.hwm ∧ online.motion.lockoutEnd ≤ online.motion.hwm ∧
    (∀ p ∈ online.pages, p.state ≠ .opened) := by decide

/-- A rising edge that finds page 7 OPEN and both rows of its bar idle. -/
theorem witness_TriggerAccepted :
    opened.control.op = .online ∧ opened.motion.triggerEdge = .rising ∧ opened.motion.triggerLevel = false ∧
    opened.motion.pos = opened.motion.hwm ∧ opened.motion.lockoutEnd ≤ opened.motion.hwm ∧
    opened.pages = [] ++ demoPage 2 :: [] ∧ (demoPage 2).state = .opened ∧ (opened.pages.map (·.id)).Nodup ∧
    opened.row 0 = some Row.fresh ∧ entry (demoPage 2).bars (rowBar 0) = true ∧ (opened.port 0).state = .ready := by
  decide +kernel

/-- Pages of 1 and of 32768 lines on bar 0, with room in the queue and with 8 records. -/
theorem witness_OpenPageAccepted :
    Takes .request online ∧ Takes .request ready ∧ online.control.op = .online ∧ ready.control.op ≠ .online ∧
    (∀ b : BarId, Nat.testBit 1 b.val = true → hasHeads online.geometry b = true) ∧ (∀ p ∈ opened.pages, p.id ≠ 8) ∧
    opened.pages.length < 8 ∧ 8 ≤ (List.replicate 8 (demoPage 2)).length :=
  ⟨takes_of_reset_link _ rfl, takes_of_reset_link _ rfl, by decide +kernel⟩

/-- A page that lacks its stripe, with nothing and with one row of it received, and one that lacks none. -/
theorem witness_OpenPageAccepted_cursor :
    cursorOf opened.pages (opened.bar 0) 0 = some { page := 7, index := 0, row := 0 } ∧
    (half.bar 0).ring = [] ++ halfStripe :: [] ∧
    cursorOf half.pages (half.bar 0) 0 = some { page := 7, index := 0, row := 1 } ∧
    cursorOf lastLine.pages (lastLine.bar 0) 0 = none := by decide +kernel

/-- Page 7 OPEN, STARTED and DONE. -/
theorem witness_AbortPageEnds :
    Takes .request opened ∧ Takes .request printing ∧ printing.control.op = .online ∧
    (printing.pages.map (·.id)).Nodup ∧ (printing.pages.map fun p => (p.id, p.state)) = [(7, .started)] ∧
    opened.pages = [] ++ demoPage 2 :: [] ∧ (demoPage 2).state ≠ .done ∧
    (after (.abortPage [7, 0] quiet) printing).pages.map (·.state) = [.done] :=
  ⟨takes_of_reset_link _ rfl, takes_of_reset_link _ rfl, by decide +kernel⟩

/-- A page that is not DONE, and the same page DONE. -/
theorem witness_ReleasePageRemoves :
    let s : State := { online with pages := [{ demoPage 2 with state := .done }] }
    Takes .request s ∧ Takes .request opened ∧ s.control.op = .online ∧ (s.pages.map (·.id)).Nodup ∧
    s.pages = [] ++ { demoPage 2 with state := .done } :: [] ∧ (demoPage 2).state ≠ .done :=
  ⟨takes_of_reset_link _ rfl, takes_of_reset_link _ rfl, by decide +kernel⟩

/-- All 1024 slots to one bar. -/
theorem witness_RingSizesAccepted :
    Takes .request ready ∧ ready.control.op = .setup ∧
    entry (#v[1024, 0, 0, 0] : Vector Nat 4) 0 + entry (#v[1024, 0, 0, 0] : Vector Nat 4) 1 +
      entry (#v[1024, 0, 0, 0] : Vector Nat 4) 2 + entry (#v[1024, 0, 0, 0] : Vector Nat 4) 3 ≤ 1024 :=
  ⟨takes_of_reset_link _ rfl, by decide +kernel⟩

/-- Threshold 1 puts bar 0 of the printing part at risk, threshold 0 does not; the starve condition holds and does
not. -/
theorem witness_StarveThresholdEvaluated :
    let set (n : Nat) : State := printing.updateBar 0 fun bs => { bs with threshold := min n (printing.bar 0).capacity }
    Takes .request printing ∧ (printing.bar 0).capacity < 65536 ∧ printing.control.op = .online ∧
    printing.store.starve = false ∧ atRisk (set 1).pages ((set 1).bar 0) 0 = true ∧
    (∀ x : BarId, atRisk (set 0).pages ((set 0).bar x) x = false) ∧
    (after (.setStarveThreshold [0, 1, 0]) printing).store.starve = true :=
  ⟨takes_of_reset_link _ rfl, by decide +kernel⟩

/-- What a piece of page 7 for bar 0 needs of the part: ONLINE, heads, slots, the page with the bar, rows of 128 bytes,
the cursor at the piece, and a body of as many rows as it says. -/
def PieceTaken (body : List Byte) (p : Page) (s : State) : Prop :=
  let pc := readPiece body
  s.control.op = .online ∧ pc.bar = (0 : BarId).val ∧ hasHeads s.geometry 0 = true ∧ (s.bar 0).capacity ≠ 0 ∧
  rowBytes s.geometry 0 = 128 ∧ findPage s.pages pc.page = some p ∧ entry p.bars 0 = true ∧ p.state ≠ .done ∧
  (s.bar 0).cursor = some { page := pc.page, index := pc.index, row := pc.firstRow } ∧
  1 ≤ pc.rowCount ∧ pc.rowCount ≤ 8 ∧ body.length = 10 + pc.rowCount * 128

/-- `opened` with a page of three lines, and the same once row 0 is stored. -/
def three : State := { opened with pages := [demoPage 3] }

def threeHalf : State :=
  { three with store := { three.store with
      bars := put three.store.bars 0 (fillingBar { halfStripe with rows := 3 }) } }

/-- Row 0 opens the record of a stripe of two rows; row 1 goes on with one of three. -/
theorem witness_StripePieceStored :
    Takes .data opened ∧ Takes .data threeHalf ∧ PieceTaken (pieceBody 0 0) (demoPage 2) opened ∧
    (readPiece (pieceBody 0 0)).firstRow = 0 ∧ (readPiece (pieceBody 0 0)).final = false ∧
    0 + 1 < min 64 ((demoPage 2).length - 64 * 0) ∧ (opened.bar 0).ring = [] ++ (none : Option Stripe).toList ∧
    ([] : List Stripe).length < (opened.bar 0).capacity ∧ PieceTaken (pieceBody 1 0) (demoPage 3) threeHalf ∧
    (readPiece (pieceBody 1 0)).firstRow ≠ 0 ∧ (readPiece (pieceBody 1 0)).final = false ∧
    1 + 1 < min 64 ((demoPage 3).length - 64 * 0) ∧
    (threeHalf.bar 0).ring = [] ++ (some { halfStripe with rows := 3 }).toList :=
  ⟨takes_of_reset_link _ rfl, takes_of_reset_link _ rfl, by unfold PieceTaken; decide +kernel⟩

/-- A piece of both rows of page 7, final, whose bytes sum to 55h, with the sum given. -/
def wholeBody (sum : Byte) : List Byte := [0, 1, 7, 0, 0, 0, 0, 2, sum, 0] ++ 0x55 :: List.replicate 255 0

/-- Row 1 ends the stripe with the sum of its bytes and with another sum; the stripe comes as one piece. -/
theorem witness_FinalPieceJudged :
    Takes .data half ∧ Takes .data opened ∧ PieceTaken (pieceBody 1 1) (demoPage 2) half ∧
    (readPiece (pieceBody 1 1)).final = true ∧
    (readPiece (pieceBody 1 1)).firstRow + 1 = min 64 ((demoPage 2).length - 64 * 0) ∧
    (half.bar 0).ring = [] ++ (some halfStripe).toList ∧ halfStripe.page = (readPiece (pieceBody 1 1)).page ∧
    halfStripe.index = (readPiece (pieceBody 1 1)).index ∧ halfStripe.rows = 2 ∧
    (halfStripe.sum + Frame.byteSum ((pieceBody 1 1).drop 10)) % 65536 = (readPiece (pieceBody 1 1)).sum ∧
    PieceTaken (wholeBody 0x55) (demoPage 2) opened ∧ (readPiece (wholeBody 0x55)).final = true ∧
    (readPiece (wholeBody 0x55)).firstRow + 2 = min 64 ((demoPage 2).length - 64 * 0) ∧
    (opened.bar 0).ring = [] ++ (none : Option Stripe).toList ∧ (opened.bar 0).nextSlot = some 0 ∧
    Frame.byteSum ((wholeBody 0x55).drop 10) % 65536 = (readPiece (wholeBody 0x55)).sum ∧
    Frame.byteSum ((wholeBody 0x54).drop 10) % 65536 ≠ (readPiece (wholeBody 0x54)).sum :=
  ⟨takes_of_reset_link _ rfl, takes_of_reset_link _ rfl, by unfold PieceTaken; decide +kernel⟩

/-- Page 7 of 66 lines STARTED, its stripe 0 received but for row 63, both rows at a line of it. -/
def overtaken (line : Nat) : State :=
  let row (r : Row) : Row := { r with cursor := some { page := 7, line := line }, fire := some 3000, latch := .empty }
  { printing with
    pages := [{ startedPage with length := 66, expected := #v[2, 0, 0, 0] }]
    rows := put (put printing.rows 0 (some (row firstRow))) 1 (some (row secondRow))
    store := { printing.store with
      bars := put printing.store.bars 0 (fillingBar { halfStripe with rows := 64, received := 63 }) } }

/-- The stripe's last line is line 63. Where the rows stand at it the stripe counts ahead; where they are at line 64 they
have passed it, and the stripe is retired as it completes and leaves the ring. -/
theorem witness_FinalPieceJudged_passed :
    Takes .data (overtaken 63) ∧ Takes .data (overtaken 64) ∧
    PieceTaken (pieceBody 63 1) { startedPage with length := 66, expected := #v[2, 0, 0, 0] } (overtaken 64) ∧
    (after (.stripePiece (pieceBody 63 1)) (overtaken 63)).bar 0 =
      { overtaken 63 |>.bar 0 with
        ring := [{ halfStripe with rows := 64, received := 64, state := .complete }], ahead := 1
        cursor := some { page := 7, index := 1, row := 0 } } ∧
    (after (.stripePiece (pieceBody 63 1)) (overtaken 64)).bar 0 =
      { overtaken 64 |>.bar 0 with ring := [], cursor := some { page := 7, index := 1, row := 0 } } :=
  ⟨takes_of_reset_link _ rfl, takes_of_reset_link _ rfl, by unfold PieceTaken; decide +kernel⟩

/-- Page 7's stripe with both its rows. -/
def wholeStripe : Stripe := { halfStripe with state := .complete, received := 2 }

/-- `opened` with page 7's stripe COMPLETE. -/
def complete : State :=
  { opened with store := { opened.store with
      bars := put opened.store.bars 0 { fillingBar wholeStripe with cursor := none } } }

/-- A COMPLETE stripe, none of another page, and a readback in progress that has read nothing. -/
theorem witness_ChecksumReadsBack :
    let rb := startReadback complete.geometry 0 wholeStripe
    Takes .request complete ∧ complete.control.op = .online ∧
    (complete.bar 0).ring.find? (fun st => decide (st.page = 7) && decide (st.index = 0) && !st.released &&
      decide (st.state = .complete)) = some wholeStripe ∧
    (complete.bar 0).ring.find? (fun st => decide (st.page = 8) && decide (st.index = 0) && !st.released &&
      decide (st.state = .complete)) = none ∧
    (after (.stripeChecksum [0, 7, 0, 0, 0] quiet) complete).link.busy = some (.checksum rb) ∧
    (rb.wordsRead, rb.sum, rb.bad) = (0, 0, 0) ∧ rb.rows ≤ 64 ∧ rb.rowBytes ≤ 1024 ∧
    (after (.stripeChecksum [0, 7, 0, 0, 0] quiet) complete).store.damage = [] :=
  ⟨takes_of_reset_link _ rfl, by decide +kernel⟩

theorem waveformOk_demoWave : WaveformOk demoWave :=
  { length_le := by decide, durations := by decide, reaches := by decide }

theorem witness_WaveformAndScaleSet :
    Takes .request ready ∧ WaveformOk demoWave ∧ ready.control.op = .setup ∧ demoWave ≠ [] ∧
    ready.control.guard.waveformLock = false ∧
    (setGuardRecord { Guard.loosest with waveformLock := true } ready).control.guard.waveformLock = true :=
  ⟨takes_of_reset_link _ rfl, waveformOk_demoWave, by decide⟩

/-- The record held, which loosens nothing, and a held ceiling of 254, which the loosest record would loosen. -/
theorem witness_GuardSetAndReleased :
    Takes .request ready ∧ ready.control.op = .setup ∧ (∀ b : BarId, entry Guard.loosest.caps b ≠ 0) ∧
    loosens ready.control.guard Guard.loosest = false ∧
    loosens { Guard.loosest with ceiling := 254 } Guard.loosest = true ∧ online.control.op = .online ∧
    ready.control.guard.releaseLock = false ∧
    (setGuardRecord { Guard.loosest with releaseLock := true } ready).control.guard.releaseLock = true :=
  ⟨takes_of_reset_link _ rfl, by decide +kernel⟩

/-- A row at REST, levels at and above 255, a clamped step; a row that plays its one step of 100 units, whose window 1
connects code 1 and leaves code 0, up to the end of the step; a row without a channel. -/
theorem witness_PlaysDriveAndEnd :
    let t := after (.encoderChange true false quiet) printing
    printing.row 0 = some firstRow ∧ scaledLevel 255 100 ≤ 255 ∧ 255 < scaledLevel 255 101 ∧
    clampedByCeiling 1 50 0 = true ∧
    (t.row 0).map (·.drive) = some (.playing
      { steps := [] ++ { output := 180, duration := 100, window := 1 } :: [], codes := [1, 2] }) ∧
    t.driveLevel 0 99 = 180 ∧ t.connects 0 99 0 = true ∧ t.connects 0 99 2 = false ∧ t.driveLevel 0 100 = 0 ∧
    t.connects 0 100 0 = false ∧ printing.row 2 = none ∧ printing.driveLevel 0 0 = 0 := by decide +kernel

/-- Row 1's blank load, both rows' loads assembling, and a query that waits already, or begins to wait together. -/
theorem witness_AssemblyEndsInWaiting :
    let both : State := printing.updateRow 0 fun row => { row with latch := .loading 0 (.assembling blankContext) }
    let asked := after (.headStatus [0]) both
    printing.store.damage = [] ∧ printing.row (rowOf 0 .B) = some secondRow ∧
    secondRow.latch = .loading 0 (.assembling blankContext) ∧ (printing.port 0).waiting = [] ++ [] ∧
    (both.row (rowOf 0 .A)).map Row.latch = some (.loading 0 (.assembling blankContext)) ∧
    (both.row (rowOf 0 .B)).map Row.latch = some (.loading 0 (.assembling blankContext)) ∧
    (asked.port 0).waiting = [] ++ [.query] ∧ (asked.port 0).waiting = [.query] ++ [] ∧
    ((after (.assemblyEnd 0 true true ⟨true, []⟩) asked).port 0).waiting = [.shift .A, .shift .B, .query] ∧
    ((after (.assemblyEnd 0 true true ⟨false, []⟩) asked).port 0).waiting = [.query, .shift .A, .shift .B] := by
  decide +kernel

/-- A load waits for a free link; a query does; nobody does; code lists of 256 and of 512 codes on the lanes. -/
theorem witness_LinkGranted :
    let s := after (.assemblyEnd 0 false true ⟨false, []⟩) printing
    let q := after (.headStatus [0]) printing
    let ex (n : Nat) : Exchange :=
      { header := { kind := .load, letter := .B, nozzles := 2 * n, tag := 0, parity := false }
        codes := List.replicate n 1, speed := .fast }
    (s.port 0).link = none ∧ (s.port 0).waiting = .shift .B :: [] ∧
    (s.row (rowOf 0 .B)).map (fun r => r.latch.waits) = some true ∧ (q.port 0).link = none ∧
    (q.port 0).waiting = .query :: [] ∧ (printing.port 0).waiting = [] ∧ (ex 256).lanes.length = 136 ∧
    (ex 512).lanes.length = 264 ∧ (ex 512).lanes[263]? = some (.codes 1 1) := by decide +kernel

/-- `printing` with row 1's load on the link. -/
def shifting : State := after (.linkGrant 0) (after (.assemblyEnd 0 false true ⟨false, []⟩) printing)

/-- A load on the link, its row's latch, and a link with none. -/
theorem witness_LoadCompletes :
    ((shifting.port 0).link.map fun ex => ex.header.kind) = some .load ∧
    (shifting.row (rowOf 0 .B)).bind (fun r => r.latch.shifting?) = some 0 ∧ soundAnswer.fault = false ∧
    (printing.port 0).link = none := by decide +kernel

/-- `shifting` with e mismatches counted at row 1. -/
def shiftingAfter (e : Nat) : State := shifting.updateRow 1 fun row => { row with errors := e }

/-- The codes of a blank line of 256 nozzles. -/
def blankCodes : CodeList := { codes := List.replicate 256 0, blank := true }

/-- Row 1 with its load on the link and e mismatches counted. -/
def thirdRow (e : Nat) : Row :=
  { secondRow with latch := .loading 0 (.shifting blankCodes), errors := e }

theorem rows_shifting : ∀ e ∈ [0, 15], ∀ r, ∀ row ∈ (shiftingAfter e).row r,
    (r = 0 ∧ row = firstRow) ∨ (r = 1 ∧ row = thirdRow e) := by decide +kernel

theorem links_shifting : ∀ e ∈ [0, 15], (shiftingAfter e).link.busy = none ∧ (shiftingAfter e).row 1 = some (thirdRow e) ∧
    ∀ p, ((shiftingAfter e).port p).waiting = [] ∧
      carriedLoad ((shiftingAfter e).port p).link = if p = 0 then some (.B, 0) else none := by decide +kernel

/-- A READY port with a load on its link, in a part whose rows agree with their ports: with no mismatch counted, and
with 15. -/
theorem rowsOk_shifting (e : Nat) (he : e ∈ [0, 15]) : RowsOk (shiftingAfter e) where
  working r row c h hc := by
    rcases rows_shifting e he r row h with ⟨rfl, rfl⟩ | ⟨rfl, rfl⟩
    · exact working_at_line_zero (s := shiftingAfter e) rfl rfl rfl _ _ _ hc rfl (.inl ⟨rfl, rfl⟩)
    · exact working_at_line_zero (s := shiftingAfter e) rfl rfl rfl _ _ _ hc rfl (.inr ⟨rfl, rfl⟩)
  served := by revert e; decide +kernel
  rows r row h := by
    have hl := (links_shifting e he).2.2
    rcases rows_shifting e he r row h with ⟨rfl, rfl⟩ | ⟨rfl, rfl⟩
    · exact { fire_iff := by decide, tagged := fun k h => by simpa [firstRow, Latch.line?] using h
              unready_empty := by revert e; decide +kernel, loaded := by revert e; decide +kernel
              offline_idle := by revert e; decide +kernel
              errors_le := by decide, errors_limit := by revert e; decide +kernel
              waits_iff := by simp [hl, firstRow, Latch.waits]
              shifts_iff := fun k => by simp [firstRow, Latch.shifting?] }
    · exact { fire_iff := rfl, tagged := fun k h => by simpa [thirdRow, secondRow, Latch.line?] using h
              unready_empty := by revert e; decide +kernel, loaded := by revert e; decide +kernel
              offline_idle := by revert e; decide +kernel
              errors_le := by revert e; decide +kernel, errors_limit := by revert e; decide +kernel
              waits_iff := by simp [hl, thirdRow, Latch.waits]
              shifts_iff := fun k h => by
                simp only [hl]
                simp only [thirdRow, Latch.shifting?, Option.some.injEq] at h
                subst h
                decide }
  carried p l tag h := by
    rw [((links_shifting e he).2.2 p).2] at h
    split at h
    · rename_i hp
      subst hp
      simp only [Option.some.injEq, Prod.mk.injEq] at h
      obtain ⟨rfl, -⟩ := h
      exact ⟨thirdRow e, 0, (links_shifting e he).2.1, rfl⟩
    · cases h
  waiting p l h := by rw [((links_shifting e he).2.2 p).1] at h; cases h
  waiting_once p := by rw [((links_shifting e he).2.2 p).1]; decide
  clearing p stage h := by rw [(links_shifting e he).1] at h; cases h

/-- A load on port 0's link with no mismatch counted at its row and with 15, and a port with none on its link. -/
theorem witness_PortFaults : ∀ e ∈ [0, 15], RowsOk (shiftingAfter e) ∧ ((shiftingAfter e).port 0).state = .ready ∧
    (((shiftingAfter e).port 0).link.map fun ex => (ex.header.kind, ex.header.letter, ex.header.tag)) =
      some (.load, .B, 0) ∧ ((shiftingAfter e).row (rowOf 0 .B)).map (·.errors) = some e ∧
    ((shiftingAfter e).port 1).link = none :=
  fun e he => ⟨rowsOk_shifting e he, by revert e; decide +kernel⟩

/-- The fault of a brief status with a warning, the sixteenth mismatch, and silence: the reports they post. -/
theorem witness_PortFaults_reports :
    let topics (c : Instr) (e : Nat) := (after c (shiftingAfter e)).reports.queue.map fun r => (r.topic, r.detail)
    topics (.loadCompletion 0 { soundAnswer with letter := .B, fault := true, warning := true }) 0 =
      [(.headWarm 0, .temperature 30), (.headFault 0, .fault .headReported)] ∧
    topics (.loadCompletion 0 { soundAnswer with letter := .B, tag := 1 }) 15 = [(.headFault 0, .fault .transfer)] ∧
    topics (.loadNoAnswer 0) 0 = [(.headFault 0, .fault .noAnswer)] := by decide +kernel

/-- A query on a READY port's link; an OFF port; a port not asked; an answer with the fault set, at 255 degrees. -/
theorem witness_HeadStatusQueried :
    let s := after (.linkGrant 0) (after (.headStatus [0]) printing)
    Takes .request printing ∧ (printing.port 0).state ≠ .off ∧ (printing.port 15).state = .off ∧
    s.link.busy = some (.headStatus 0) ∧ ((s.port 0).link.map fun ex => ex.header.kind) = some .query ∧
    (s.port 0).state = .ready ∧ printing.link.busy ≠ some (.headStatus 0) ∧
    replyTo (.queryAnswer 0 { ready := false, fault := true, temperature := 255 }) s =
      [0, 0x80, 0, 1, 2, 1, 255, 0, 1, 0, 0, 0, 0, 0, 0, 0] :=
  ⟨takes_of_reset_link _ rfl, by decide +kernel⟩

/-- `printing` with port 0 FAULT. -/
def faulted : State := faultPort 0 .noAnswer printing

/-- A FAULT port, a READY one, and a reset on the link. -/
theorem witness_HeadFaultReset :
    let s := after (.clearHeadFault [0]) faulted
    Takes .request faulted ∧ faulted.control.op = .online ∧ (faulted.port 0).state = .fault ∧
    (printing.port 0).state ≠ .fault ∧ s.link.busy = some (.clearFault 0 .reset) ∧
    ((s.port 0).link.map fun ex => ex.header.kind) = some .reset :=
  ⟨takes_of_reset_link _ rfl, by decide +kernel⟩

/-- The recovery probe on the link, and row 1 still on its line. -/
theorem witness_RecoveryProbeOutcome :
    let s := after (.resetTimeout 0) (after (.clearHeadFault [0]) faulted)
    s.link.busy = some (.clearFault 0 .probe) ∧ ((s.port 0).link.map fun ex => ex.header.kind) = some .probe ∧
    (s.row (rowOf 0 .B)).bind (·.cursor) = some { page := 7, line := 0 } ∧ soundAnswer.letter = .A ∧
    soundAnswer.tag = 0 := by decide +kernel

theorem witness_FetchReportReturnsHead :
    Takes .request faulted ∧ (∃ r, faulted.reports.queue = r :: []) ∧ Takes .request printing ∧
    printing.reports.queue = [] :=
  ⟨takes_of_reset_link _ rfl, ⟨_, rfl⟩, takes_of_reset_link _ rfl, rfl⟩

/-- n ordinary reports. -/
def manyReports (n : Nat) : List Report :=
  (List.range n).map fun i => { topic := .pageDone i, pos := 0, count := 1, detail := .none }

/-- Room for one more ordinary report, none, and an OVERFLOW report held behind 31. -/
theorem witness_EventsPosted :
    (∀ x ∈ manyReports 30, x.topic ≠ .starve) ∧ ordinaryHeld (manyReports 30) < 31 ∧
    (∀ x ∈ manyReports 31, x.topic ≠ .starve) ∧ 31 ≤ ordinaryHeld (manyReports 31) ∧
    (∀ x ∈ manyReports 31, x.topic ≠ .overflow) := by decide +kernel

/-- Row 0's line found COMPLETE, found FILLING, not found, and on a port that is not READY; the line a changeover holds
last, and the line after it. -/
theorem witness_LoadBegins :
    printing.row 0 = some firstRow ∧ firstRow.cursor = some { page := 7, line := 0 } ∧
    (printing.port (portOf 0)).state = .ready ∧ (faulted.port (portOf 0)).state ≠ .ready ∧
    loadSource (complete.bar (rowBar 0)).ring 7 0 = .data 0 ∧ loadSource (half.bar (rowBar 0)).ring 7 0 = .blank ∧
    loadSource (printing.bar (rowBar 0)).ring 7 0 = .blank ∧
    (entry changing.geometry.changeovers (rowBar 0)).map (fun co => (co.port, co.start, co.line)) = some (0, 600, 0) ∧
    pageStart changing.pages 7 = 600 := by decide +kernel

/-- The seam of an overlap of 64 columns as the contexts of its two heads hold it. -/
theorem witness_LoadBegins_seams :
    let s : State := { printing with geometry := pair 448 64 }
    (makeContext s 0 { page := 7, line := 0 }).seams =
      [{ isLeft := true, first := 448, mask := List.replicate 64 0x5555, otherOrigin := 448, other := [] }] ∧
    (makeContext s 3 { page := 7, line := 0 }).seams =
      [{ isLeft := false, first := 448, mask := List.replicate 64 0x5555, otherOrigin := 0, other := [] }] := by
  decide +kernel

theorem witness_WordsReadUnderCheckBits :
    damageOf [] 0 = none ∧ damageOf [(0, .oneWrongBit)] 0 = some .oneWrongBit ∧
    damageOf [(0, .uncorrectable)] 0 = some .uncorrectable := by decide

theorem witness_FirePositionsIncrease : 65536 ≤ 65536 ∧ 65536 ≤ 218453 := by decide

/-- The two sides of the seam of section 6.6 at column 1000, whose nozzle of port 0 is dead. -/
theorem witness_SeamColumnHasOneOwner :
    let mask : List (BitVec 16) := List.replicate 8 0xFFFF ++ List.replicate 24 0
    let lv : SeamView := { isLeft := true, first := 992, mask := mask, otherOrigin := 992, other := [] }
    let rv : SeamView := { isLeft := false, first := 992, mask := mask, otherOrigin := 0, other := seamContext.own }
    let right : Context := { seamContext with row := 2, origin := 992, own := [], seams := [rv] }
    seamContext.seams.find? (fun sv => sv.holds 1000) = some lv ∧ right.seams.find? (fun sv => sv.holds 1000) = some rv ∧
    lv.first = rv.first ∧ lv.mask = rv.mask ∧ seamContext.phase = right.phase ∧ lv.otherOrigin = right.origin ∧
    rv.otherOrigin = seamContext.origin ∧ lv.other = right.own ∧ rv.other = seamContext.own := by decide

/-- Two heads that overlap by 64 columns, one list and one line: the first and the last column of the seam are held by
the left head on phase 1 and by the right one on phase 0. -/
theorem witness_SeamColumnHasOneOwner_contexts :
    let s : State := { printing with geometry := pair 448 64 }
    layoutOk s.geometry (barOf 0) = true ∧ masksOk s.geometry (barOf 0) = true ∧
    (∀ line ∈ [0, 1], ∀ c ∈ [448, 511], 448 ≤ c ∧ c < demoHead.origin + demoHead.size.count ∧
      (makeContext s (rowOf 0 .A) { page := 7, line := line }).owns c = decide (line = 1) ∧
      (makeContext s (rowOf 1 .B) { page := 7, line := line }).owns c = decide (line = 0)) := by decide +kernel

theorem witness_CodesOfALine :
    isDead seamContext.own 10 = true ∧ isDead seamContext.own 11 = false ∧
    seamContext.own.find? (fun e => e.helper = some 11) = some ⟨10, some 11⟩ ∧
    isDead seamContext.own 12 = false ∧ (∀ d ∈ seamContext.own, d.helper ≠ some 12) ∧
    seamContext.source = .data 0 ∧ blankContext.source = .blank := by decide

end Sys2Proof.Tests
end

section
/-! PROOF. What an event leaves of the Stripe Store's bars: which operations do not touch them, and that none but
SET RING SIZES and power-on reset changes a ring capacity. -/

namespace Sys2Proof.Machine

/-! ### Operations that do not touch the bars -/

@[simp] theorem evaluateStarve_bars (s : State) : (evaluateStarve s).store.bars = s.store.bars := by
  unfold evaluateStarve
  split <;> split <;> rfl

@[simp] theorem readWord_bars (k : ReadKey) (place word : Nat) (s : State) :
    (readWord k place word s).2.store.bars = s.store.bars := by
  unfold readWord
  split <;> rfl

@[simp] theorem readWords_bars (k : ReadKey) (place : Nat) (ws : List Nat) (s : State) :
    (readWords k place ws s).2.store.bars = s.store.bars := by
  induction ws generalizing s with
  | nil => rfl
  | cons w ws ih => exact (ih _).trans (readWord_bars k place w s)

@[simp] theorem readbackWords_bars (n : Nat) (rb : Readback) (s : State) :
    (readbackWords n rb s).2.store.bars = s.store.bars := by
  induction n generalizing rb s with
  | zero => rfl
  | succ n ih =>
    unfold readbackWords
    split
    · exact (ih _ _).trans (readWord_bars _ _ _ s)
    · rfl

@[simp] theorem fetchWords_bars (n : Nat) (r : RowId) (s : State) : (fetchWords n r s).store.bars = s.store.bars := by
  unfold fetchWords
  split
  · split
    · rfl
    · exact readWords_bars _ _ _ s
  · rfl

@[simp] theorem noteUnderrun_store (b : BarId) (page line : Nat) (s : State) :
    (noteUnderrun b page line s).store = s.store := rfl

@[simp] theorem takeUp_store (r : RowId) (next : Option Page) (s : State) : (takeUp r next s).store = s.store := by
  cases next <;> rfl

@[simp] theorem clearLatch_store (r : RowId) (s : State) : (clearLatch r s).store = s.store := by
  unfold clearLatch
  split <;> rfl

@[simp] theorem startPlay_store (r : RowId) (codes : List Code) (s : State) :
    (startPlay r codes s).store = s.store := by
  unfold startPlay
  dsimp only
  split <;> rfl

@[simp] theorem carryOut_store (r : RowId) (c : Cursor) (o : LineOutcome) (s : State) :
    (carryOut r c o s).store = s.store := by
  cases o with
  | fired list => exact startPlay_store r list.codes s
  | dropped cause => exact clearLatch_store r s

@[simp] theorem judgeChangeover_store (b : BarId) (s : State) : (judgeChangeover b s).store = s.store := by
  unfold judgeChangeover
  split
  · rfl
  · split <;> rfl

@[simp] theorem judgeChangeovers_store (bs : List BarId) (s : State) : (judgeChangeovers bs s).store = s.store := by
  induction bs generalizing s with
  | nil => rfl
  | cons b bs ih => exact (ih _).trans (judgeChangeover_store b s)

@[simp] theorem reportDone_store (id : Nat) (s : State) : (reportDone id s).store = s.store := by
  unfold reportDone
  split <;> rfl

@[simp] theorem faultPort_store (p : PortId) (cause : FaultCause) (s : State) :
    (faultPort p cause s).store = s.store := by
  unfold faultPort
  split
  · simp
  · rfl

@[simp] theorem takeBrief_store (p : PortId) (st : BriefStatus) (s : State) : (takeBrief p st s).store = s.store := by
  unfold takeBrief
  dsimp only
  split <;> rfl

/-! ### Ring capacities -/

/-- The ring capacities of the four bars (R53). -/
def State.capacities (s : State) : Vector Nat 4 := s.store.bars.map (·.capacity)

theorem State.capacity_eq {s t : State} (h : t.capacities = s.capacities) (b : BarId) :
    (t.bar b).capacity = (s.bar b).capacity := by
  have := congrArg (entry · b) h
  simpa [State.capacities, State.bar] using this

theorem capacities_eq_of_bars {s t : State} (h : t.store.bars = s.store.bars) : t.capacities = s.capacities := by
  simp [State.capacities, h]

theorem capacities_eq_iff {s t : State} :
    t.capacities = s.capacities ↔ ∀ b : BarId, (t.bar b).capacity = (s.bar b).capacity := by
  refine ⟨fun h b => State.capacity_eq h b, fun h => table_ext fun b => ?_⟩
  simpa [State.capacities, State.bar] using h b

theorem updateBar_capacities (s : State) (b : BarId) (f : BarStore → BarStore)
    (hf : (f (s.bar b)).capacity = (s.bar b).capacity) : (s.updateBar b f).capacities = s.capacities := by
  rw [capacities_eq_iff]
  intro x
  rw [State.bar_updateBar]
  split
  · rename_i h
    rw [← h, hf]
  · rfl

@[simp] theorem refreshCursor_capacities (b : BarId) (s : State) : (refreshCursor b s).capacities = s.capacities :=
  updateBar_capacities s b _ rfl

@[simp] theorem refreshCursors_capacities (s : State) : (refreshCursors s).capacities = s.capacities := by
  simp [refreshCursors]

@[simp] theorem evaluateStarve_capacities (s : State) : (evaluateStarve s).capacities = s.capacities :=
  capacities_eq_of_bars (evaluateStarve_bars s)

@[simp] theorem judgeRetirement_capacities (b : BarId) (s : State) :
    (judgeRetirement b s).capacities = s.capacities := by
  unfold judgeRetirement
  dsimp only
  split
  · exact (refreshCursor_capacities b _).trans (updateBar_capacities s b _ rfl)
  · exact (evaluateStarve_capacities _).trans
      ((refreshCursor_capacities b _).trans (updateBar_capacities s b _ rfl))

@[simp] theorem judgeRetirements_capacities (bs : List BarId) (s : State) :
    (judgeRetirements bs s).capacities = s.capacities := by
  induction bs generalizing s with
  | nil => rfl
  | cons b bs ih => exact (ih _).trans (judgeRetirement_capacities b s)

@[simp] theorem storePageEnd_capacities (bars : Vector Bool 4) (s : State) :
    (storePageEnd bars s).capacities = s.capacities := by
  simp [storePageEnd]

@[simp] theorem takeStripe_capacities (b : BarId) (page index : Nat) (s : State) :
    (takeStripe b page index s).capacities = s.capacities := by
  unfold takeStripe
  split
  · exact (evaluateStarve_capacities _).trans (updateBar_capacities s b _ rfl)
  · rfl

@[simp] theorem beginLoad_capacities (n : Nat) (r : RowId) (s : State) :
    (beginLoad n r s).capacities = s.capacities := by
  unfold beginLoad
  split
  · split
    · unfold beginLoadAt
      split
      · exact (capacities_eq_of_bars (fetchWords_bars n r _)).trans (takeStripe_capacities _ _ _ (openContext r _ s))
      · rfl
    · rfl
  · rfl

theorem finishPage_capacities (id : Nat) (s : State) : (finishPage id s).capacities = s.capacities := by
  unfold finishPage
  dsimp only
  split
  · split
    · exact (storePageEnd_capacities _ _).trans (capacities_eq_of_bars (congrArg Store.bars (reportDone_store _ _)))
    · rfl
  · rfl

theorem takeUp_capacities (r : RowId) (next : Option Page) (s : State) :
    (takeUp r next s).capacities = s.capacities := capacities_eq_of_bars (by simp)

theorem moveOn_capacities (n : Nat) (r : RowId) (c : Cursor) (s : State) :
    (moveOn n r c s).capacities = s.capacities := by
  unfold moveOn
  split
  · rfl
  · split
    · exact beginLoad_capacities n r _
    · exact ((beginLoad_capacities n r _).trans (finishPage_capacities _ _)).trans (takeUp_capacities r _ s)

theorem handOn_capacities (n : Nat) (r : RowId) (c : Cursor) (o : LineOutcome) (s : State) :
    (handOn n r c o s).capacities = s.capacities :=
  (capacities_eq_of_bars (congrArg Store.bars (judgeChangeover_store _ _))).trans
    ((judgeRetirement_capacities _ _).trans (moveOn_capacities n r c _))

theorem fireDecision_capacities (n : Nat) (r : RowId) (s : State) :
    (fireDecision n r s).capacities = s.capacities := by
  unfold fireDecision
  split
  · rfl
  · split
    · rfl
    · split
      · rfl
      · exact (handOn_capacities n r _ _ _).trans (capacities_eq_of_bars (by simp))

theorem arriveAll_capacities (n H : Nat) (rs : List RowId) (s : State) :
    (arriveAll n H rs s).capacities = s.capacities := by
  induction rs generalizing s with
  | nil => rfl
  | cons r rs ih =>
    refine (ih _).trans ?_
    unfold arrive
    split
    · exact fireDecision_capacities n r s
    · rfl

theorem takeUpStarts_capacities (n : Nat) (p : Page) (rs : List RowId) (s : State) :
    (takeUpStarts n p rs s).capacities = s.capacities := by
  induction rs generalizing s with
  | nil => rfl
  | cons r rs ih =>
    refine (ih _).trans ?_
    unfold takeUpStart
    split
    · rfl
    · split
      · exact beginLoad_capacities n r _
      · rfl

theorem startPage_capacities (env : Outside) (p : Page) (T S : Nat) (s : State) :
    (startPage env p T S s).capacities = s.capacities :=
  (evaluateStarve_capacities _).trans (takeUpStarts_capacities _ p _ _)

theorem leavePages_capacities (n id : Nat) (rs : List RowId) (s : State) :
    (leavePages n id rs s).capacities = s.capacities := by
  induction rs generalizing s with
  | nil => rfl
  | cons r rs ih =>
    refine (ih _).trans ?_
    unfold leavePage
    split
    · rfl
    · split
      · exact ((beginLoad_capacities n r _).trans (takeUp_capacities r _ _)).trans
          (capacities_eq_of_bars (congrArg Store.bars (clearLatch_store r s)))
      · rfl

theorem abortPage_capacities (env : Outside) (p : Page) (s : State) :
    (abortPage env p s).capacities = s.capacities := by
  have hleave : ((leavePages env.fetched p.id (rowOrder env) s).updatePage p.id Page.abort).capacities = s.capacities :=
    leavePages_capacities env.fetched p.id (rowOrder env) s
  rw [abortPage, capacities_eq_of_bars (congrArg Store.bars (reportDone_store p.id _)),
    capacities_eq_of_bars (congrArg Store.bars (judgeChangeovers_store allBars _)), storePageEnd_capacities, hleave]

theorem recoverRows_capacities (n : Nat) (rs : List RowId) (s : State) :
    (recoverRows n rs s).capacities = s.capacities := by
  induction rs generalizing s with
  | nil => rfl
  | cons r rs ih => exact (ih _).trans (beginLoad_capacities n r _)

end Sys2Proof.Machine
end

section
/-! PROOF. The setting-up of the part: what it consists of, the ten commands that can change it, and that no other
command does. -/

namespace Sys2Proof.Machine

/-! ### What the host sets up -/

/-- What stands fixed outside SETUP: head definitions, stitch masks, waveform tables, the motion settings with their
flag, and the ring capacities (R19, R28, R54, R111). -/
structure Fixtures where
  heads : Vector (Option Head) 16
  masks : Vector (Vector (Option Mask) 3) 4
  waveforms : Vector (List WaveStep) 4
  motionSet : Bool
  pitch : Nat
  delay : Nat
  gap : Nat
  triggerEdge : TriggerSense
  encoderSense : EncoderSense
  capacities : Vector Nat 4

/-- The fixtures, and what the host may also change ONLINE: defect lists, drive scales and the guard record. -/
structure Setup where
  fixtures : Fixtures
  defects : Vector (List Defect) 16
  scales : Vector Nat 4
  guard : Guard

/-- The fixtures of a state. -/
def State.fixtures (s : State) : Fixtures where
  heads := s.geometry.heads
  masks := s.geometry.masks
  waveforms := s.drives.waveforms
  motionSet := s.control.motionSet
  pitch := s.motion.pitch
  delay := s.motion.delay
  gap := s.motion.gap
  triggerEdge := s.motion.triggerEdge
  encoderSense := s.motion.encoderSense
  capacities := s.capacities

/-- The setting-up of a state. -/
def State.setup (s : State) : Setup where
  fixtures := s.fixtures
  defects := s.geometry.defects
  scales := s.drives.scales
  guard := s.control.guard

/-- An event at rows keeps the setting-up where it keeps the ring capacities. -/
theorem setup_of_rowEvent {s t : State} (h : RowEvent s t) (hc : t.capacities = s.capacities) :
    t.setup = s.setup := by
  simp [State.setup, State.fixtures, h.heads, h.masks, h.drives, h.control, h.motion, h.defects, hc]

/-- The commands that can change the setting-up. -/
def setsUp : Instr → Bool
  | .powerOnReset .. | .defineHead _ | .loadStitchMask _ | .loadDefectList _ | .setMotion _ | .setRingSizes _
  | .loadWaveform _ | .setDriveScale _ | .setGuard _ | .releaseGuard _ => true
  | _ => false

/-! ### Requests -/

section
variable {P : State → Prop} (hlink : ∀ (u : State) (l : Link), P u → P { u with link := l })
include hlink

theorem rejectFrame_keeps {s : State} (hs : P s) (reason : BadReason) (echo : Byte) :
    P (rejectFrame reason echo s) := by
  unfold rejectFrame
  dsimp only
  split
  · exact hlink _ _ (hlink _ _ hs)
  · exact hlink _ _ hs

theorem completeFrame_keeps {judge : State → State × Answer} {s : State} (hs : P s)
    (hj : ∀ l : Link, P (judge { s with link := l }).1) (echo : Byte) : P (completeFrame echo judge s) := by
  unfold completeFrame admitFrame
  dsimp only
  split
  · split
    · exact hlink _ _ (hlink _ _ hs)
    · split
      · exact hlink _ _ (hj _)
      · exact hlink _ _ (hj _)
  · exact hlink _ _ hs

/-- What a change of the link keeps and the judgement keeps, taking the request keeps: a request reaches the part
through the Link Controller and its judgement alone (R148, R149). -/
theorem takeRequest_keeps {judge : State → State × Answer} {s : State} (hs : P s)
    (hj : ∀ l : Link, P (judge { s with link := l }).1) (code : Byte) (params : List Byte) :
    P (takeRequest code params judge s) := by
  unfold takeRequest
  split
  · exact hs
  · split
    · exact completeFrame_keeps hlink hs hj code
    · exact rejectFrame_keeps hlink hs .length 0

/-- The same of a data frame. -/
theorem takeData_keeps {judge : State → State × Answer} {s : State} (hs : P s)
    (hj : ∀ l : Link, P (judge { s with link := l }).1) (body : List Byte) : P (takeData body judge s) := by
  unfold takeData
  split
  · exact hs
  · split
    · exact completeFrame_keeps hlink hs hj 0xFF
    · exact rejectFrame_keeps hlink hs .length 0xFF

end

/-- A request keeps the setting-up where its judgement does. -/
theorem takeRequest_setup {judge : State → State × Answer} (hj : ∀ u : State, (judge u).1.setup = u.setup)
    (code : Byte) (params : List Byte) (s : State) : (takeRequest code params judge s).setup = s.setup :=
  takeRequest_keeps (P := fun u => u.setup = s.setup) (fun _ _ h => h) rfl (fun _ => hj _) code params

/-! ### Judgements that keep the setting-up -/

theorem reply_fst (st : Status) (fields : List Byte) (s : State) : (reply st fields s).1 = s := rfl

theorem judgeSetLinkRate_setup (ps : List Byte) (s : State) : (judgeSetLinkRate ps s).1.setup = s.setup := by
  unfold judgeSetLinkRate
  split
  · rfl
  · split <;> rfl

theorem judgeSync_setup (ps : List Byte) (s : State) : (judgeSync ps s).1.setup = s.setup := by
  unfold judgeSync
  split <;> rfl

theorem judgeGoOnline_setup (ps : List Byte) (s : State) : (judgeGoOnline ps s).1.setup = s.setup := by
  unfold judgeGoOnline
  split
  · rfl
  · split
    · rfl
    · split
      · rfl
      · split <;> rfl

theorem teardown_setup (s : State) : (teardown s).setup = s.setup := by
  have hstarve : (if s.store.starve then leaveStarve s else s).setup = s.setup := by split <;> rfl
  refine Eq.trans ?_ hstarve
  simp only [teardown, State.setup, State.fixtures, Setup.mk.injEq, Fixtures.mk.injEq, true_and, and_true]
  exact table_ext fun b => by simp [State.capacities, tornDownBar]

theorem beginDraining_setup (clear : Bool) (s : State) : (beginDraining clear s).1.setup = s.setup :=
  teardown_setup (s.withOp .draining)

theorem judgeGoOffline_setup (ps : List Byte) (s : State) : (judgeGoOffline ps s).1.setup = s.setup := by
  unfold judgeGoOffline
  split
  · rfl
  · split
    · rfl
    · exact beginDraining_setup false s

theorem judgeClear_setup (ps : List Byte) (s : State) : (judgeClear ps s).1.setup = s.setup := by
  unfold judgeClear
  split
  · rfl
  · split
    · rfl
    · split
      · exact beginDraining_setup true s
      · rfl

theorem judgeReadPosition_setup (ps : List Byte) (s : State) : (judgeReadPosition ps s).1.setup = s.setup := by
  unfold judgeReadPosition
  split <;> rfl

theorem refreshCursors_setup (s : State) : (refreshCursors s).setup = s.setup :=
  setup_of_rowEvent (rowEvent_refreshCursors s) (refreshCursors_capacities s)

theorem judgeOpenPage_setup (ps : List Byte) (s : State) : (judgeOpenPage ps s).1.setup = s.setup := by
  unfold judgeOpenPage
  split
  · rfl
  · split
    · rfl
    · split
      · rfl
      · exact refreshCursors_setup _

theorem judgeAbortPage_setup (ps : List Byte) (env : Outside) (s : State) :
    (judgeAbortPage ps env s).1.setup = s.setup := by
  unfold judgeAbortPage
  split
  · rfl
  · split
    · rfl
    · split
      · rfl
      · split
        · rfl
        · rename_i p _ _
          rw [reply_fst]
          exact setup_of_rowEvent (rowEvent_abortPage env p s) (abortPage_capacities env p s)

theorem removePage_setup (id : Nat) (s : State) : (removePage id s).setup = s.setup := by
  refine (refreshCursors_setup _).trans ?_
  simp only [State.setup, State.fixtures, Setup.mk.injEq, Fixtures.mk.injEq, true_and, and_true]
  exact table_ext fun b => by simp [State.capacities, markReleased]

theorem judgeReleasePage_setup (ps : List Byte) (s : State) : (judgeReleasePage ps s).1.setup = s.setup := by
  unfold judgeReleasePage
  split
  · rfl
  · split
    · rfl
    · split
      · rfl
      · split
        · rfl
        · exact removePage_setup _ s

theorem judgePageStatus_setup (ps : List Byte) (s : State) : (judgePageStatus ps s).1.setup = s.setup := by
  unfold judgePageStatus
  repeat' split
  all_goals rfl

theorem updateBar_setup (s : State) (b : BarId) (f : BarStore → BarStore)
    (hf : (f (s.bar b)).capacity = (s.bar b).capacity) : (s.updateBar b f).setup = s.setup :=
  setup_of_rowEvent (rowEvent_updateBar s b f) (updateBar_capacities s b f hf)

theorem evaluateStarve_setup (s : State) : (evaluateStarve s).setup = s.setup :=
  setup_of_rowEvent (rowEvent_evaluateStarve s) (evaluateStarve_capacities s)

theorem judgeSetStarveThreshold_setup (ps : List Byte) (s : State) :
    (judgeSetStarveThreshold ps s).1.setup = s.setup := by
  unfold judgeSetStarveThreshold
  split
  · rfl
  · split
    · rfl
    · exact (evaluateStarve_setup _).trans (updateBar_setup s _ _ rfl)

theorem readbackWords_setup (n : Nat) (rb : Readback) (s : State) : (readbackWords n rb s).2.setup = s.setup :=
  setup_of_rowEvent (rowEvent_readbackWords n rb s) (capacities_eq_of_bars (readbackWords_bars n rb s))

theorem judgeStripeChecksum_setup (ps : List Byte) (first : Nat) (s : State) :
    (judgeStripeChecksum ps first s).1.setup = s.setup := by
  unfold judgeStripeChecksum
  split
  · rfl
  · split
    · rfl
    · split
      · rfl
      · split
        · rfl
        · exact readbackWords_setup _ _ s

theorem judgeReadMemoryErrors_setup (ps : List Byte) (s : State) :
    (judgeReadMemoryErrors ps s).1.setup = s.setup := by
  unfold judgeReadMemoryErrors
  split
  · rfl
  · split
    · rfl
    · split <;> rfl

theorem judgeReadGuard_setup (ps : List Byte) (s : State) : (judgeReadGuard ps s).1.setup = s.setup := by
  unfold judgeReadGuard
  split <;> rfl

theorem judgeHeadStatus_setup (ps : List Byte) (s : State) : (judgeHeadStatus ps s).1.setup = s.setup := by
  unfold judgeHeadStatus
  split
  · rfl
  · split
    · rfl
    · split <;> rfl

theorem judgeClearHeadFault_setup (ps : List Byte) (s : State) : (judgeClearHeadFault ps s).1.setup = s.setup := by
  unfold judgeClearHeadFault
  split
  · rfl
  · split
    · rfl
    · split
      · rfl
      · split <;> rfl

theorem judgeFetchReport_setup (ps : List Byte) (s : State) : (judgeFetchReport ps s).1.setup = s.setup := by
  unfold judgeFetchReport
  split
  · rfl
  · split <;> rfl

/-! ### Stripe pieces -/

theorem writeRows_bars (slot rowBytes place n : Nat) (data : List Byte) (st : Store) :
    (writeRows slot rowBytes place n data st).bars = st.bars := by
  induction n generalizing place data st with
  | zero => rfl
  | succ n ih => exact ih _ _ _

theorem storeRows_setup (b : BarId) (pc : Piece) (s : State) : (storeRows b pc s).setup = s.setup := by
  unfold storeRows
  split
  · rfl
  · refine (updateBar_setup _ b _ rfl).trans ?_
    simp only [State.setup, State.fixtures, State.capacities, writeRows_bars]

theorem updatePage_setup (s : State) (id : Nat) (f : Page → Page) : (s.updatePage id f).setup = s.setup := rfl

theorem completeStripe_setup (b : BarId) (pc : Piece) (s : State) : (completeStripe b pc s).setup = s.setup := by
  unfold completeStripe
  refine (evaluateStarve_setup _).trans ((refreshCursors_setup _).trans ?_)
  refine (updateBar_setup _ b _ ?_).trans ((updatePage_setup _ pc.page _).trans (updateBar_setup s b _ rfl))
  exact (apply_ite BarStore.capacity _ _ _).trans (ite_self _)

theorem discardStripe_setup (b : BarId) (s : State) : (discardStripe b s).setup = s.setup :=
  (refreshCursors_setup _).trans (updateBar_setup s b _ rfl)

theorem storePiece_setup (b : BarId) (pc : Piece) (R : Nat) (s : State) :
    (storePiece b pc R s).1.setup = s.setup := by
  have hopen : (if pc.firstRow = 0 then openStripe b pc R s else s).setup = s.setup := by
    split
    · exact updateBar_setup s b _ rfl
    · rfl
  have hstore := (storeRows_setup b pc _).trans hopen
  unfold storePiece
  dsimp only
  generalize storeRows b pc (if pc.firstRow = 0 then openStripe b pc R s else s) = u at hstore
  split
  · split
    · exact (completeStripe_setup b pc u).trans hstore
    · exact (discardStripe_setup b u).trans hstore
  · exact (refreshCursors_setup u).trans hstore

theorem judgeStripePiece_setup (body : List Byte) (s : State) : (judgeStripePiece body s).1.setup = s.setup := by
  unfold judgeStripePiece
  dsimp only
  split
  · rfl
  · split
    · rfl
    · split
      · rfl
      · split
        · rfl
        · split
          · rfl
          · split
            · rfl
            · split
              · rfl
              · split
                · rfl
                · split
                  · rfl
                  · exact storePiece_setup _ _ _ s

/-! ### Events at ports and rows -/

theorem clearLatch_setup (r : RowId) (s : State) : (clearLatch r s).setup = s.setup :=
  setup_of_rowEvent (rowEvent_clearLatch r s) (capacities_eq_of_bars (congrArg Store.bars (clearLatch_store r s)))

theorem faultPort_setup (p : PortId) (cause : FaultCause) (s : State) : (faultPort p cause s).setup = s.setup := by
  unfold faultPort
  split
  · exact (clearLatch_setup _ _).trans (clearLatch_setup _ _)
  · rfl

theorem takeBrief_setup (p : PortId) (st : BriefStatus) (s : State) : (takeBrief p st s).setup = s.setup := by
  unfold takeBrief
  dsimp only
  split <;> rfl

theorem fetchWords_setup (n : Nat) (r : RowId) (s : State) : (fetchWords n r s).setup = s.setup :=
  setup_of_rowEvent (rowEvent_fetchWords n r s) (capacities_eq_of_bars (fetchWords_bars n r s))

theorem endAssembly_setup (query : Bool) (r : RowId) (s : State) : (endAssembly query r s).setup = s.setup := by
  unfold endAssembly
  split
  · dsimp only
    split <;> exact fetchWords_setup _ r s
  · rfl

theorem grantShift_setup (p : PortId) (l : Letter) (rest : List Requester) (s : State) :
    (grantShift p l rest s).setup = s.setup := by
  unfold grantShift
  split <;> rfl

theorem completeLoad_setup (p : PortId) (h : LineHeader) (st : BriefStatus) (s : State) :
    (completeLoad p h st s).setup = s.setup := by
  unfold completeLoad
  dsimp only
  split
  · exact (faultPort_setup p _ _).trans (takeBrief_setup p st s)
  · split
    · exact (faultPort_setup p _ _).trans (takeBrief_setup p st s)
    · exact takeBrief_setup p st s

theorem goOnlineNext_setup (p : PortId) (s : State) : (goOnlineNext p s).setup = s.setup := by
  unfold goOnlineNext
  dsimp only
  split <;> rfl

theorem recoverRows_setup (n : Nat) (rs : List RowId) (s : State) : (recoverRows n rs s).setup = s.setup :=
  setup_of_rowEvent (rowEvent_recoverRows n rs s) (recoverRows_capacities n rs s)

theorem recovered_setup (env : Outside) (p : PortId) (answer : BriefStatus) (s : State) :
    (recovered env p answer s).setup = s.setup :=
  recoverRows_setup env.fetched (portRows env p) _

theorem endProbe_setup (env : Outside) (p : PortId) (w : Work) (cause : Option FaultCause)
    (answer : Option BriefStatus) (s : State) : (endProbe env p w cause answer s).setup = s.setup := by
  unfold endProbe
  split
  · rfl
  · exact goOnlineNext_setup p s
  · rfl
  · exact recovered_setup env p _ s
  · rfl

theorem endQuery_setup (p : PortId) (answer : Option QueryReply) (s : State) :
    (endQuery p answer s).setup = s.setup := by
  unfold endQuery
  dsimp only
  split
  · split
    · exact faultPort_setup p _ _
    · rfl
  · exact faultPort_setup p _ _

theorem enterSetup_setup (clear : Bool) (count : Nat) (s : State) : (enterSetup clear count s).setup = s.setup := by
  cases clear <;> rfl

theorem endReadback_setup (rb : Readback) (s : State) : (endReadback rb s).setup = s.setup :=
  readbackWords_setup _ rb s

/-! ### Motion -/

theorem forwardTick_setup (env : Outside) (s : State) : (forwardTick env s).setup = s.setup := by
  have htick : (s.updateMotion Motion.forwardTick).setup = s.setup := by
    unfold Motion.forwardTick State.updateMotion
    dsimp only
    split
    · rfl
    · split <;> rfl
  unfold forwardTick
  dsimp only
  split
  · exact (setup_of_rowEvent (rowEvent_arriveAll _ _ _ _) (arriveAll_capacities _ _ _ _)).trans htick
  · exact htick

theorem passOn_setup (env : Outside) (c : Option TickClass) (s : State) : (passOn env c s).setup = s.setup := by
  unfold passOn
  split
  · split
    · exact forwardTick_setup env s
    · rfl
    · rfl
    · rfl
  · rfl

theorem startPage_setup (env : Outside) (p : Page) (T S : Nat) (s : State) :
    (startPage env p T S s).setup = s.setup :=
  setup_of_rowEvent (rowEvent_startPage env p T S s) (startPage_capacities env p T S s)

theorem judgeTrigger_setup (env : Outside) (s : State) : (judgeTrigger env s).setup = s.setup := by
  unfold judgeTrigger
  dsimp only
  split
  · rfl
  · split
    · rfl
    · split
      · rfl
      · exact startPage_setup env _ _ _ _

/-! ### All commands -/

/-- The outcome is a next state with this setting-up. -/
def Keeps (x : Setup) (o : Host.Outcome State Fault Refusal) : Prop := ∀ t, o = .next t → t.setup = x

theorem keeps_next {x : Setup} {t : State} (h : t.setup = x) : Keeps x (.next t) := by
  rintro _ ⟨⟩
  exact h

theorem assemblyEnd_keeps (port : PortId) (rowA rowB : Bool) (env : AssemblyMoment) (s : State) :
    Keeps s.setup (execAssemblyEnd port rowA rowB env s) := by
  have hA : (if rowA then endAssembly env.query (rowOf port .A) (upset env.upsets s) else upset env.upsets s).setup =
      s.setup := by
    split
    · exact endAssembly_setup _ _ _
    · rfl
  refine keeps_next ?_
  split
  · exact (endAssembly_setup _ _ _).trans hA
  · exact hA

theorem linkGrant_keeps (port : PortId) (s : State) : Keeps s.setup (execLinkGrant port s) := by
  refine keeps_next ?_
  split
  · exact grantShift_setup _ _ _ s
  · rfl
  · rfl

theorem loadCompletion_keeps (port : PortId) (st : BriefStatus) (s : State) :
    Keeps s.setup (execLoadCompletion port st s) := by
  refine keeps_next ?_
  split
  · exact completeLoad_setup _ _ _ s
  · rfl

theorem loadNoAnswer_keeps (port : PortId) (s : State) : Keeps s.setup (execLoadNoAnswer port s) := by
  refine keeps_next ?_
  split
  · exact faultPort_setup port _ s
  · rfl

theorem triggerEdge_keeps (level : Bool) (env : Outside) (s : State) :
    Keeps s.setup (execTriggerEdge level env s) := by
  refine keeps_next ?_
  split
  · exact judgeTrigger_setup env _
  · rfl

theorem badFrame_keeps (kind : FrameKind) (length : BitVec 16) (rest : List Byte) (s : State) :
    Keeps s.setup (execBadFrame kind length rest s) := by
  refine keeps_next ?_
  split
  · rfl
  · split
    · exact rejectFrame_keeps (P := fun u => u.setup = s.setup) (fun _ _ h => h) rfl _ _
    · rfl
    · rfl

theorem unknownRequest_keeps (code : Byte) (params : List Byte) (s : State) :
    Keeps s.setup (execUnknownRequest code params s) := by
  refine keeps_next ?_
  split
  · rfl
  · exact takeRequest_setup (fun _ => rfl) _ _ s

theorem replySent_keeps (s : State) : Keeps s.setup (execReplySent s) := by
  refine keeps_next ?_
  split <;> rfl

theorem trialRevert_keeps (s : State) : Keeps s.setup (execTrialRevert s) := by
  refine keeps_next ?_
  split <;> rfl

theorem probeAnswer_keeps (port : PortId) (st : BriefStatus) (env : Outside) (s : State) :
    Keeps s.setup (execProbeAnswer port st env s) := by
  refine keeps_next ?_
  split
  · split
    · exact (endProbe_setup _ _ _ _ _ _).trans (takeBrief_setup port st _)
    · rfl
  · rfl

theorem probeTimeout_keeps (port : PortId) (s : State) : Keeps s.setup (execProbeTimeout port s) := by
  refine keeps_next ?_
  split
  · exact endProbe_setup _ _ _ _ _ _
  · rfl

theorem drainComplete_keeps (s : State) : Keeps s.setup (execDrainComplete s) := by
  refine keeps_next ?_
  split
  · split
    · exact enterSetup_setup _ _ s
    · rfl
  · rfl

theorem checksumReadbackEnd_keeps (upsets : List Upset) (s : State) :
    Keeps s.setup (execChecksumReadbackEnd upsets s) := by
  refine keeps_next ?_
  split
  · exact endReadback_setup _ _
  · rfl

theorem queryAnswer_keeps (port : PortId) (answer : QueryReply) (s : State) :
    Keeps s.setup (execQueryAnswer port answer s) := by
  refine keeps_next ?_
  split
  · exact endQuery_setup _ _ s
  · rfl

theorem queryNoAnswer_keeps (port : PortId) (s : State) : Keeps s.setup (execQueryNoAnswer port s) := by
  refine keeps_next ?_
  split
  · exact endQuery_setup _ _ s
  · rfl

theorem resetAnswer_keeps (port : PortId) (st : BriefStatus) (s : State) :
    Keeps s.setup (execResetAnswer port st s) := by
  refine keeps_next ?_
  split
  · exact takeBrief_setup port st s
  · rfl

theorem resetTimeout_keeps (port : PortId) (s : State) : Keeps s.setup (execResetTimeout port s) := by
  refine keeps_next ?_
  split <;> rfl

theorem startMark_keeps (kind : FrameKind) (s : State) : Keeps s.setup (execStartMark kind s) := by
  refine keeps_next ?_
  split <;> rfl

/-- No command but the ten of `setsUp` changes the setting-up of the part. -/
theorem exec_keeps_setup (c : Instr) (hc : setsUp c = false) (s : State) : Keeps s.setup (exec c s) := by
  cases c with
  | powerOnReset | defineHead | loadStitchMask | loadDefectList | setMotion | setRingSizes | loadWaveform
  | setDriveScale | setGuard | releaseGuard => simp [setsUp] at hc
  | encoderChange a b env => exact keeps_next (passOn_setup env _ _)
  | assemblyEnd port rowA rowB env => exact assemblyEnd_keeps port rowA rowB env s
  | linkGrant port => exact linkGrant_keeps port s
  | loadCompletion port st => exact loadCompletion_keeps port st s
  | loadNoAnswer port => exact loadNoAnswer_keeps port s
  | lateAnswer port answer => exact keeps_next rfl
  | playCompletion row => exact keeps_next rfl
  | triggerEdge level env => exact triggerEdge_keeps level env s
  | badFrame kind length rest => exact badFrame_keeps kind length rest s
  | frameTimeout => exact keeps_next rfl
  | unknownRequest code ps => exact unknownRequest_keeps code ps s
  | replySent => exact replySent_keeps s
  | trialRevert => exact trialRevert_keeps s
  | setLinkRate ps => exact keeps_next (takeRequest_setup (judgeSetLinkRate_setup ps) _ ps s)
  | sync ps => exact keeps_next (takeRequest_setup (judgeSync_setup ps) _ ps s)
  | goOnline ps => exact keeps_next (takeRequest_setup (judgeGoOnline_setup ps) _ ps s)
  | probeAnswer port st env => exact probeAnswer_keeps port st env s
  | probeTimeout port => exact probeTimeout_keeps port s
  | goOffline ps => exact keeps_next (takeRequest_setup (judgeGoOffline_setup ps) _ ps s)
  | clear ps => exact keeps_next (takeRequest_setup (judgeClear_setup ps) _ ps s)
  | drainComplete => exact drainComplete_keeps s
  | readPosition ps => exact keeps_next (takeRequest_setup (judgeReadPosition_setup ps) _ ps s)
  | openPage ps => exact keeps_next (takeRequest_setup (judgeOpenPage_setup ps) _ ps s)
  | abortPage ps env => exact keeps_next (takeRequest_setup (judgeAbortPage_setup ps env) _ ps _)
  | releasePage ps => exact keeps_next (takeRequest_setup (judgeReleasePage_setup ps) _ ps s)
  | pageStatus ps => exact keeps_next (takeRequest_setup (judgePageStatus_setup ps) _ ps s)
  | setStarveThreshold ps => exact keeps_next (takeRequest_setup (judgeSetStarveThreshold_setup ps) _ ps s)
  | stripeChecksum ps env => exact keeps_next (takeRequest_setup (judgeStripeChecksum_setup ps env.fetched) _ ps _)
  | checksumReadbackEnd upsets => exact checksumReadbackEnd_keeps upsets s
  | readMemoryErrors ps => exact keeps_next (takeRequest_setup (judgeReadMemoryErrors_setup ps) _ ps s)
  | stripePiece body =>
    exact keeps_next (takeData_keeps (P := fun u => u.setup = s.setup) (fun _ _ h => h) rfl
      (fun _ => judgeStripePiece_setup body _) body)
  | readGuard ps => exact keeps_next (takeRequest_setup (judgeReadGuard_setup ps) _ ps s)
  | headStatus ps => exact keeps_next (takeRequest_setup (judgeHeadStatus_setup ps) _ ps s)
  | queryAnswer port answer => exact queryAnswer_keeps port answer s
  | queryNoAnswer port => exact queryNoAnswer_keeps port s
  | clearHeadFault ps => exact keeps_next (takeRequest_setup (judgeClearHeadFault_setup ps) _ ps s)
  | resetAnswer port st => exact resetAnswer_keeps port st s
  | resetTimeout port => exact resetTimeout_keeps port s
  | fetchReport ps => exact keeps_next (takeRequest_setup (judgeFetchReport_setup ps) _ ps s)
  | startMark kind => exact startMark_keeps kind s

end Sys2Proof.Machine
end

section
/-! PROOF. The ten commands that set the part up: outside SETUP the tables of SETUP stand (O15), and every table stays
within its ranges (O13, with the entry checks of a defect list, O28). -/

namespace Sys2Proof.Machine

/-! ### Outside SETUP -/

/-- A request keeps the fixtures where its judgement on this state does. -/
theorem takeRequest_fixtures {judge : State → State × Answer} {s : State}
    (hj : ∀ l : Link, (judge { s with link := l }).1.fixtures = s.fixtures) (code : Byte) (params : List Byte) :
    (takeRequest code params judge s).fixtures = s.fixtures :=
  takeRequest_keeps (P := fun u => u.fixtures = s.fixtures) (fun _ _ h => h) rfl hj code params

/-- A request that outside SETUP changes nothing keeps the fixtures there. -/
theorem takeRequest_fixtures_outside {judge : State → State × Answer}
    (hj : ∀ u : State, u.control.op ≠ .setup → (judge u).1 = u) {s : State} (hop : s.control.op ≠ .setup)
    (code : Byte) (params : List Byte) : (takeRequest code params judge s).fixtures = s.fixtures :=
  takeRequest_fixtures (fun l => (congrArg State.fixtures (hj { s with link := l } hop)).trans rfl) code params

section
variable (ps : List Byte) (s : State) (h : s.control.op ≠ .setup)
include h

theorem judgeDefineHead_outside : (judgeDefineHead ps s).1 = s := by
  rw [judgeDefineHead, if_pos h, reply_fst]

theorem judgeLoadStitchMask_outside : (judgeLoadStitchMask ps s).1 = s := by
  rw [judgeLoadStitchMask, if_pos h, reply_fst]

theorem judgeSetMotion_outside : (judgeSetMotion ps s).1 = s := by
  rw [judgeSetMotion, if_pos h, reply_fst]

theorem judgeSetRingSizes_outside : (judgeSetRingSizes ps s).1 = s := by
  rw [judgeSetRingSizes, if_pos h, reply_fst]

theorem judgeLoadWaveform_outside : (judgeLoadWaveform ps s).1 = s := by
  rw [judgeLoadWaveform, if_pos h, reply_fst]

theorem judgeReleaseGuard_outside : (judgeReleaseGuard ps s).1 = s := by
  by_cases hl : s.control.guard.releaseLock = true <;> simp [judgeReleaseGuard, hl, h, reply_fst]

end

theorem installDefects_fixtures (p : PortId) (ds : List Defect) (s : State) :
    (installDefects p ds s).1.fixtures = s.fixtures := by
  unfold installDefects
  dsimp only
  split <;> rfl

/-- A defect list is none of the fixtures, and neither is the changeover that holds an old one. -/
theorem judgeLoadDefectList_fixtures (ps : List Byte) (s : State) :
    (judgeLoadDefectList ps s).1.fixtures = s.fixtures := by
  unfold judgeLoadDefectList
  split
  · rfl
  · split
    · rfl
    · split
      · rfl
      · split
        · rfl
        · split
          · rfl
          · split
            · rfl
            · split
              · rfl
              · split
                · rfl
                · exact installDefects_fixtures _ _ s

theorem judgeSetDriveScale_fixtures (ps : List Byte) (s : State) :
    (judgeSetDriveScale ps s).1.fixtures = s.fixtures := by
  unfold judgeSetDriveScale
  repeat' split
  all_goals rfl

theorem judgeSetGuard_fixtures (ps : List Byte) (s : State) : (judgeSetGuard ps s).1.fixtures = s.fixtures := by
  unfold judgeSetGuard
  repeat' split
  all_goals rfl

/-- Outside SETUP no command but power-on reset changes the fixtures. -/
theorem exec_fixtures {c : Instr} {s t : State} (hc : ¬ isPowerOnReset c) (hop : s.control.op ≠ .setup)
    (h : exec c s = .next t) : t.fixtures = s.fixtures := by
  cases hs : setsUp c with
  | false => exact congrArg Setup.fixtures (exec_keeps_setup c hs s t h)
  | true =>
    cases c with
    | powerOnReset a b g => exact absurd ⟨a, b, g, rfl⟩ hc
    | defineHead ps =>
      obtain rfl := Host.Outcome.next.inj h
      exact takeRequest_fixtures_outside (judgeDefineHead_outside ps) hop _ ps
    | loadStitchMask ps =>
      obtain rfl := Host.Outcome.next.inj h
      exact takeRequest_fixtures_outside (judgeLoadStitchMask_outside ps) hop _ ps
    | loadDefectList ps =>
      obtain rfl := Host.Outcome.next.inj h
      exact takeRequest_fixtures (fun l => judgeLoadDefectList_fixtures ps _) _ ps
    | setMotion ps =>
      obtain rfl := Host.Outcome.next.inj h
      exact takeRequest_fixtures_outside (judgeSetMotion_outside ps) hop _ ps
    | setRingSizes ps =>
      obtain rfl := Host.Outcome.next.inj h
      exact takeRequest_fixtures_outside (judgeSetRingSizes_outside ps) hop _ ps
    | loadWaveform ps =>
      obtain rfl := Host.Outcome.next.inj h
      exact takeRequest_fixtures_outside (judgeLoadWaveform_outside ps) hop _ ps
    | setDriveScale ps =>
      obtain rfl := Host.Outcome.next.inj h
      exact takeRequest_fixtures (fun l => judgeSetDriveScale_fixtures ps _) _ ps
    | setGuard ps =>
      obtain rfl := Host.Outcome.next.inj h
      exact takeRequest_fixtures (fun l => judgeSetGuard_fixtures ps _) _ ps
    | releaseGuard ps =>
      obtain rfl := Host.Outcome.next.inj h
      exact takeRequest_fixtures_outside (judgeReleaseGuard_outside ps) hop _ ps
    | _ => simp [setsUp] at hs

/-- Settles O15: the fixtures stand outside SETUP. -/
theorem tablesFixedOutsideSetup : Obligations.TablesFixedOutsideSetup := by
  intro c s t hc hop h
  have hf := exec_fixtures hc hop h
  simp only [State.fixtures, Fixtures.mk.injEq] at hf
  obtain ⟨heads, masks, waveforms, motionSet, pitch, delay, gap, edge, sense, capacities⟩ := hf
  exact ⟨heads, masks, waveforms, pitch, delay, gap, edge, sense, motionSet, State.capacity_eq capacities⟩

end Sys2Proof.Machine
end

section
/-! PROOF. The entry checks of LOAD DEFECT LIST pass exactly the lists of R14 (O28). -/

namespace Sys2Proof.Machine

/-- A chain of checks passes where its first check passes and the rest do. -/
theorem check_eq_none {α : Type} {p : Prop} [Decidable p] {a : α} {x : Option α} :
    (if p then some a else x) = none ↔ ¬ p ∧ x = none := by
  split <;> simp [*]

theorem isDead_eq_false {ds : List Defect} {j : Nat} : isDead ds j = false ↔ ∀ d ∈ ds, d.dead ≠ j := by
  simp [isDead]

/-- An entry that is right by itself (R15 checks 5, 7, 8, 9): its nozzles are below the count, and its helper is
another nozzle, alive in the whole list. -/
def Defect.Sound (M : Nat) (all : List Defect) (d : Defect) : Prop :=
  d.dead < M ∧ ∀ h, d.helper = some h → h < M ∧ h ≠ d.dead ∧ isDead all h = false

/-- Two entries share no dead nozzle and no helper (R15 checks 6, 10). -/
def Defect.Apart (e d : Defect) : Prop := e.dead ≠ d.dead ∧ ∀ h, d.helper = some h → e.helper ≠ some h

theorem entryFailure_eq_none {M : Nat} {before all : List Defect} {d : Defect} :
    entryFailure M before all d = none ↔ d.Sound M all ∧ ∀ e ∈ before, e.Apart d := by
  unfold entryFailure Defect.Sound Defect.Apart
  cases hd : d.helper with
  | none => simp [check_eq_none, isDead_eq_false]
  | some h => simp [check_eq_none, isDead_eq_false, forall_and]; tauto

/-- The entries pass where each is right by itself, apart from those before the list, and apart from each other. -/
theorem entriesFailure_eq_none {M : Nat} {before all ds : List Defect} :
    entriesFailure M before all ds = none ↔
      (∀ d ∈ ds, d.Sound M all) ∧ (∀ e ∈ before, ∀ d ∈ ds, e.Apart d) ∧ ds.Pairwise Defect.Apart := by
  induction ds generalizing before with
  | nil => simp [entriesFailure]
  | cons d ds ih =>
    have hstep : entriesFailure M before all (d :: ds) = none ↔
        entryFailure M before all d = none ∧ entriesFailure M (before ++ [d]) all ds = none := by
      cases h : entryFailure M before all d <;> simp [entriesFailure, h]
    simp only [hstep, ih, entryFailure_eq_none, List.forall_mem_append, List.forall_mem_cons, List.pairwise_cons,
      List.not_mem_nil, false_imp_iff, implies_true, and_true, forall_and]
    tauto

/-- Settles O28: R14's list is one of sound entries that are apart. -/
theorem defectChecksAreR14 : Obligations.DefectChecksAreR14 := by
  intro M ds
  rw [entriesFailure_eq_none]
  constructor
  · rintro ⟨hlength, hbelow, hdead, hlive, hhelper⟩
    refine ⟨hlength, fun d hd => ⟨(hbelow d hd).1, fun h hh => ⟨(hbelow d hd).2 h hh, ?_, hlive d hd h hh⟩⟩, by simp, ?_⟩
    · exact fun e => isDead_eq_false.mp (hlive d hd h hh) d hd e.symm
    · exact (List.pairwise_map.mp hdead).imp₂ (fun _ _ h1 h2 => ⟨h1, fun h hd he => h2 h he hd⟩) hhelper
  · rintro ⟨hlength, hsound, -, hapart⟩
    exact
      { length_le := hlength
        below := fun d hd => ⟨(hsound d hd).1, fun h hh => ((hsound d hd).2 h hh).1⟩
        dead_once := List.pairwise_map.mpr (hapart.imp fun h => h.1)
        helper_live := fun d hd h hh => ((hsound d hd).2 h hh).2.2
        helper_once := hapart.imp fun h k hx hy => h.2 k hy hx }

end Sys2Proof.Machine
end

section
/-! PROOF. Every step keeps every table within its ranges (O13): the ten commands that set the part up write only what
their checks have passed. -/

namespace Sys2Proof.Machine

/-- The ranges are of what the host sets up. -/
theorem tablesOk_of_setup {s t : State} (h : t.setup = s.setup) (ok : TablesOk s) : TablesOk t := by
  simp only [State.setup, State.fixtures, Setup.mk.injEq, Fixtures.mk.injEq] at h
  obtain ⟨⟨hheads, hmasks, hwaveforms, -⟩, hdefects, hscales, hguard⟩ := h
  exact
    { heads := by rw [hheads]; exact ok.heads
      defects := by rw [hheads, hdefects]; exact ok.defects
      defects_none := by rw [hheads, hdefects]; exact ok.defects_none
      masks := by rw [hmasks]; exact ok.masks
      waveforms := by rw [hwaveforms]; exact ok.waveforms
      scales := by rw [hscales]; exact ok.scales
      caps := by rw [hguard]; exact ok.caps }

theorem defectsOk_nil (M : Nat) : DefectsOk M [] where
  length_le := by simp
  below := by simp
  dead_once := by simp
  helper_live := by simp
  helper_once := by simp

theorem waveformOk_nil : WaveformOk [] where
  length_le := by simp
  durations := by simp
  reaches := by simp

/-- Power-on values are within their ranges (R156). -/
theorem tablesOk_powerOn (memory : Memory) (damage : List (Nat × Damage)) (a b g : Bool) (pending : List Instr) :
    TablesOk { State.powerOn memory damage a b g with pending := pending } where
  heads := by simp [State.powerOn]
  defects := by simp [State.powerOn]
  defects_none := by simp [State.powerOn]
  masks := by simp [State.powerOn]
  waveforms := by simp [State.powerOn, waveformOk_nil]
  scales := by simp [State.powerOn]
  caps := by simp [State.powerOn, Guard.loosest]

/-! ### DEFINE HEAD -/

/-- A head record with offsets and origin in their ranges (R1). -/
def Head.InRange (h : Head) : Prop := h.origin ≤ 4095 ∧ h.offsetA ≤ 1099511627775 ∧ h.offsetB ≤ 1099511627775

/-- The checks of R8 pass records in range. -/
theorem headFailure_eq_none {ps : List Byte} (h : headFailure ps = none) (huse : (readHeadParams ps).use = 1) :
    (readHeadParams ps).head.InRange := by
  simp only [headFailure, check_eq_none, huse] at h
  simp only [Nat.one_ne_zero, if_false, check_eq_none] at h
  obtain ⟨-, -, -, -, horigin, hA, hB, -⟩ := h
  simp only [Head.InRange, HeadParams.head]
  omega

/-- Writing a port's record keeps the ranges where the record is in range and its list is kept only for the nozzle
count it was made for (R9). -/
theorem tablesOk_setHead {s : State} (ok : TablesOk s) (p : PortId) (h : Option Head) (keep : Bool)
    (hrange : ∀ x, h = some x → x.InRange)
    (hkeep : keep = true → ∃ old new, entry s.geometry.heads p = some old ∧ h = some new ∧ old.size = new.size) :
    TablesOk (setHead p h keep s) := by
  have hhead : ∀ q, entry (setHead p h keep s).geometry.heads q = if p = q then h else entry s.geometry.heads q :=
    fun q => entry_put _ p q h
  have hlist : ∀ q, entry (setHead p h keep s).geometry.defects q =
      if keep = false ∧ p = q then [] else entry s.geometry.defects q := by
    intro q
    cases keep
    · simpa [setHead] using entry_put s.geometry.defects p q []
    · simp [setHead]
  exact
    { ok with
      heads := fun q x hx => by
        rw [hhead] at hx
        split at hx
        · exact hrange x hx
        · exact ok.heads q x hx
      defects := fun q x hx => by
        rw [hhead] at hx
        rw [hlist]
        split at hx
        · rename_i hpq
          subst hpq
          cases keep with
          | false => simp [defectsOk_nil]
          | true =>
            obtain ⟨old, new, hold, hnew, hsize⟩ := hkeep rfl
            obtain rfl : new = x := Option.some.inj (hnew.symm.trans hx)
            simpa [hsize] using ok.defects p old hold
        · rename_i hpq
          simpa [hpq] using ok.defects q x hx
      defects_none := fun q hq => by
        rw [hhead] at hq
        rw [hlist]
        split at hq
        · cases keep with
          | false => simp [*]
          | true =>
            obtain ⟨old, new, -, hnew, -⟩ := hkeep rfl
            simp [hnew] at hq
        · rename_i hpq
          simpa [hpq] using ok.defects_none q hq }

theorem tablesOk_judgeDefineHead {ps : List Byte} {s : State} (ok : TablesOk s) :
    TablesOk (judgeDefineHead ps s).1 := by
  unfold judgeDefineHead
  split
  · exact ok
  · split
    · exact ok
    · split
      · exact ok
      · exact ok
      · rename_i p hcheck _
        dsimp only
        rw [reply_fst]
        split
        · rename_i huse
          refine tablesOk_setHead ok p _ _ (fun x hx => ?_) (fun hkeep => ?_)
          · cases hx
            exact headFailure_eq_none hcheck huse
          · unfold keepsDefects at hkeep
            split at hkeep
            · rename_i old hold
              exact ⟨old, _, hold, rfl, of_decide_eq_true hkeep⟩
            · simp at hkeep
        · exact tablesOk_setHead ok p none false (by simp) (by simp)

/-! ### LOAD STITCH MASK -/

@[simp] theorem readMaskColumns_length (n : Nat) (ps : List Byte) : (readMaskColumns n ps).length = n := by
  induction n generalizing ps with
  | zero => rfl
  | succ n ih => simp [readMaskColumns, ih]

theorem tablesOk_judgeLoadStitchMask {ps : List Byte} {s : State} (ok : TablesOk s) :
    TablesOk (judgeLoadStitchMask ps s).1 := by
  unfold judgeLoadStitchMask
  split
  · exact ok
  · split
    · exact ok
    · split
      · exact ok
      · rename_i hcheck
        simp only [maskFailure, check_eq_none] at hcheck
        obtain ⟨-, -, hwidth, -⟩ := hcheck
        refine { ok with masks := fun b i m hm => ?_ }
        simp only [reply_fst, setMask, entry_put] at hm
        split at hm
        · rw [entry_put] at hm
          split at hm
          · unfold readMask at hm
            split at hm
            · simp at hm
            · cases hm
              simp only [readMaskColumns_length]
              omega
          · subst_vars
            exact ok.masks _ i m hm
        · exact ok.masks b i m hm

/-! ### LOAD DEFECT LIST -/

theorem readDefects_length {n : Nat} {ps : List Byte} {ds : List Defect} (h : readDefects n ps = some ds) :
    ds.length = n := by
  induction n, ps using readDefects.induct generalizing ds with
  | case1 => simp_all [readDefects]
  | case2 => simp [readDefects] at h
  | case3 n d0 d1 ps ih =>
    simp only [readDefects, if_true, Option.map_eq_some_iff] at h
    obtain ⟨rest, hrest, rfl⟩ := h
    simp [ih hrest]
  | case4 n d0 d1 mark hmark h0 h1 ps ih =>
    simp only [readDefects, if_neg hmark, Option.map_eq_some_iff] at h
    obtain ⟨rest, hrest, rfl⟩ := h
    simp [ih hrest]
  | case5 n d0 d1 mark ps hmark hps =>
    rw [readDefects, if_neg hmark] at h
    · simp at h
    · exact hps
  | case6 n ps hps => simp [readDefects] at h

theorem tablesOk_installDefects {s : State} (ok : TablesOk s) {p : PortId} {h : Head} {ds : List Defect}
    (hp : entry s.geometry.heads p = some h) (hds : DefectsOk h.size.count ds) :
    TablesOk (installDefects p ds s).1 := by
  have key : ∀ g : Geometry, g.heads = s.geometry.heads → g.masks = s.geometry.masks →
      g.defects = put s.geometry.defects p ds → TablesOk { s with geometry := g } := by
    intro g hheads hmasks hdefects
    refine { ok with heads := ?_, defects := fun q x hx => ?_, defects_none := fun q hq => ?_, masks := ?_ }
    · simpa only [hheads] using ok.heads
    · rw [hheads] at hx
      rw [hdefects, entry_put]
      split
      · subst_vars
        obtain rfl : h = x := Option.some.inj (hp.symm.trans hx)
        exact hds
      · exact ok.defects q x hx
    · rw [hheads] at hq
      rw [hdefects, entry_put_of_ne]
      · exact ok.defects_none q hq
      · rintro rfl
        simp [hp] at hq
    · simpa only [hmasks] using ok.masks
  unfold installDefects
  dsimp only
  split <;> exact key _ rfl rfl rfl

theorem tablesOk_judgeLoadDefectList {ps : List Byte} {s : State} (ok : TablesOk s) :
    TablesOk (judgeLoadDefectList ps s).1 := by
  unfold judgeLoadDefectList
  split
  · exact ok
  · split
    · exact ok
    · split
      · exact ok
      · split
        · exact ok
        · rename_i ds hds
          split
          · exact ok
          · split
            · exact ok
            · rename_i h hp
              split
              · exact ok
              · split
                · exact ok
                · rename_i hcheck
                  refine tablesOk_installDefects ok hp ((defectChecksAreR14 _ ds).mpr ⟨?_, hcheck⟩)
                  rw [readDefects_length hds]
                  omega

/-! ### Drives and the guard record -/

theorem stepsFailure_eq_none {i : Nat} {sts : List StepParams} :
    stepsFailure i sts = none ↔ ∀ st ∈ sts, 1 ≤ st.duration ∧ st.duration ≤ 4095 ∧ st.window ≤ 3 := by
  induction sts generalizing i with
  | nil => simp [stepsFailure]
  | cons st sts ih =>
    simp only [stepsFailure, check_eq_none, ih, List.forall_mem_cons]
    constructor
    · rintro ⟨h1, h2, h3⟩
      exact ⟨by omega, h3⟩
    · rintro ⟨h1, h2⟩
      exact ⟨by omega, by omega, h2⟩

@[simp] theorem readSteps_length (n : Nat) (ps : List Byte) : (readSteps n ps).length = n := by
  induction n generalizing ps with
  | zero => rfl
  | succ n ih => simp [readSteps, ih]

/-- The checks of R112 pass waveforms of R111. -/
theorem waveformFailure_eq_none {ps : List Byte} (h : waveformFailure ps = none) :
    WaveformOk ((readSteps (fieldAt ps 1 1) (ps.drop 2)).map StepParams.step) := by
  simp only [waveformFailure, check_eq_none] at h
  obtain ⟨-, -, hcount, hsteps⟩ := h
  split at hsteps
  · simp at hsteps
  · rename_i hnone
    rw [stepsFailure_eq_none] at hnone
    split at hsteps
    · rename_i hany
      obtain ⟨st, hmem, hwindow⟩ := List.any_eq_true.mp hany
      exact
        { length_le := by simp; omega
          durations := by
            simp only [List.forall_mem_map, StepParams.step]
            exact fun st hst => ⟨(hnone st hst).1, (hnone st hst).2.1⟩
          reaches := fun _ => ⟨st.step, List.mem_map_of_mem hmem, by
            simp only [decide_eq_true_eq] at hwindow
            simp [StepParams.step, hwindow]⟩ }
    · simp at hsteps

theorem tablesOk_judgeLoadWaveform {ps : List Byte} {s : State} (ok : TablesOk s) :
    TablesOk (judgeLoadWaveform ps s).1 := by
  unfold judgeLoadWaveform
  split
  · exact ok
  · split
    · exact ok
    · split
      · exact ok
      · exact ok
      · rename_i b hcheck _
        refine { ok with waveforms := fun x => ?_ }
        simp only [reply_fst, setWaveform, entry_put]
        split
        · exact waveformFailure_eq_none hcheck
        · exact ok.waveforms x

theorem tablesOk_judgeSetDriveScale {ps : List Byte} {s : State} (ok : TablesOk s) :
    TablesOk (judgeSetDriveScale ps s).1 := by
  unfold judgeSetDriveScale
  split
  · exact ok
  · split
    · exact ok
    · refine { ok with scales := fun x => ?_ }
      simp only [reply_fst, entry_put]
      split
      · unfold limitScale
        omega
      · exact ok.scales x

theorem mem_allBars (b : BarId) : b ∈ allBars := by
  revert b
  decide

theorem tablesOk_judgeSetGuard {ps : List Byte} {s : State} (ok : TablesOk s) : TablesOk (judgeSetGuard ps s).1 := by
  unfold judgeSetGuard
  split
  · exact ok
  · rename_i hcheck
    split
    · exact ok
    · refine { ok with caps := fun b => ?_ }
      simp only [guardFailure, check_eq_none, Bool.not_eq_true, List.any_eq_false, Bool.or_eq_true,
        decide_eq_true_eq] at hcheck
      have hb := hcheck.2.1 b (mem_allBars b)
      simp only [reply_fst, setGuardRecord, readGuardRecord, entry_ofFn]
      omega

theorem tablesOk_judgeReleaseGuard {ps : List Byte} {s : State} (ok : TablesOk s) :
    TablesOk (judgeReleaseGuard ps s).1 := by
  unfold judgeReleaseGuard
  split
  · exact ok
  · split
    · exact ok
    · split
      · exact ok
      · exact
          { ok with
            waveforms := by simp [reply_fst, releasedGuard, waveformOk_nil]
            caps := by simp [reply_fst, releasedGuard, setGuardRecord, Guard.loosest] }

/-! ### SET MOTION and SET RING SIZES -/

theorem tablesOk_judgeSetMotion {ps : List Byte} {s : State} (ok : TablesOk s) :
    TablesOk (judgeSetMotion ps s).1 := by
  unfold judgeSetMotion
  split
  · exact ok
  · split
    · exact ok
    · exact { ok with }

theorem tablesOk_judgeSetRingSizes {ps : List Byte} {s : State} (ok : TablesOk s) :
    TablesOk (judgeSetRingSizes ps s).1 := by
  unfold judgeSetRingSizes
  split
  · exact ok
  · split
    · exact ok
    · exact { ok with }

/-! ### All commands -/

theorem tablesOk_takeRequest {judge : State → State × Answer} (hj : ∀ u, TablesOk u → TablesOk (judge u).1)
    {s : State} (ok : TablesOk s) (code : Byte) (params : List Byte) :
    TablesOk (takeRequest code params judge s) :=
  takeRequest_keeps (fun _ _ h => { h with }) ok (fun _ => hj _ { ok with }) code params

theorem exec_tablesOk {c : Instr} {s t : State} (ok : TablesOk s) (h : exec c s = .next t) : TablesOk t := by
  cases hs : setsUp c with
  | false => exact tablesOk_of_setup (exec_keeps_setup c hs s t h) ok
  | true =>
    cases c with
    | powerOnReset a b g =>
      obtain rfl := Host.Outcome.next.inj h
      exact tablesOk_powerOn _ _ a b g _
    | defineHead ps =>
      obtain rfl := Host.Outcome.next.inj h
      exact tablesOk_takeRequest (fun _ => tablesOk_judgeDefineHead) ok _ ps
    | loadStitchMask ps =>
      obtain rfl := Host.Outcome.next.inj h
      exact tablesOk_takeRequest (fun _ => tablesOk_judgeLoadStitchMask) ok _ ps
    | loadDefectList ps =>
      obtain rfl := Host.Outcome.next.inj h
      exact tablesOk_takeRequest (fun _ => tablesOk_judgeLoadDefectList) ok _ ps
    | setMotion ps =>
      obtain rfl := Host.Outcome.next.inj h
      exact tablesOk_takeRequest (fun _ => tablesOk_judgeSetMotion) ok _ ps
    | setRingSizes ps =>
      obtain rfl := Host.Outcome.next.inj h
      exact tablesOk_takeRequest (fun _ => tablesOk_judgeSetRingSizes) ok _ ps
    | loadWaveform ps =>
      obtain rfl := Host.Outcome.next.inj h
      exact tablesOk_takeRequest (fun _ => tablesOk_judgeLoadWaveform) ok _ ps
    | setDriveScale ps =>
      obtain rfl := Host.Outcome.next.inj h
      exact tablesOk_takeRequest (fun _ => tablesOk_judgeSetDriveScale) ok _ ps
    | setGuard ps =>
      obtain rfl := Host.Outcome.next.inj h
      exact tablesOk_takeRequest (fun _ => tablesOk_judgeSetGuard) ok _ ps
    | releaseGuard ps =>
      obtain rfl := Host.Outcome.next.inj h
      exact tablesOk_takeRequest (fun _ => tablesOk_judgeReleaseGuard) ok _ ps
    | _ => simp [setsUp] at hs

/-- Settles O13: a step idles, or runs the command at the front. -/
theorem stepsKeepTablesOk : Obligations.StepsKeepTablesOk := by
  intro s t ok h
  unfold step at h
  split at h
  · obtain rfl := Host.Outcome.next.inj h
    exact ok
  · rename_i rest _
    exact exec_tablesOk (s := { s with pending := rest }) { ok with } h

end Sys2Proof.Machine
end

section
/-! PROOF. LOAD DEFECT LIST (O29), and the beginning and the end of DRAINING (O25). -/

namespace Sys2Proof.Machine

/-! ### LOAD DEFECT LIST -/

theorem mem_barRows {b : BarId} {r : RowId} : r ∈ barRows b ↔ rowBar r = b := by
  simp [barRows, mem_allRows]

theorem toPort_val (p : PortId) : toPort p.val = some p := by
  simp [toPort]

/-- A bar whose rows all stand idle has no leading line. -/
theorem leadingLine_eq_none {s : State} {b : BarId}
    (h : ∀ r row, rowBar r = b → s.row r = some row → row.cursor = none) : leadingLine s b = none := by
  have hnil : ((barRows b).filterMap fun r => ((s.row r).bind (·.cursor)).map fun c =>
      (c.page, c.line, pageStart s.pages c.page)) = [] := by
    rw [List.filterMap_eq_nil_iff]
    intro r hr
    cases hrow : s.row r with
    | none => rfl
    | some row => simp [h r row (mem_barRows.mp hr) hrow]
  rw [leadingLine, hnil]

theorem changeoverOpen_eq {ps : List Byte} {p : PortId} {s : State} (hps : ps ≠ []) (hp : fieldAt ps 0 1 = p.val) :
    changeoverOpen ps s = (entry s.geometry.changeovers (barOf p)).isSome := by
  cases ps with
  | nil => exact absurd rfl hps
  | cons x xs => simp [changeoverOpen, hp, toPort_val]

/-- A list that passes every check of R15 is installed. -/
theorem judgeLoadDefectList_accepts {ps : List Byte} {p : PortId} {h : Head} {ds : List Defect} {s : State}
    (hlen : 2 ≤ ps.length) (hp : fieldAt ps 0 1 = p.val) (hn : fieldAt ps 1 1 = ds.length)
    (hlock : s.control.guard.mapLock = false)
    (hclosed : ¬ (s.control.op = .online ∧ (entry s.geometry.changeovers (barOf p)).isSome = true))
    (hh : entry s.geometry.heads p = some h) (hds : readDefects ds.length (ps.drop 2) = some ds)
    (hok : DefectsOk h.size.count ds) : judgeLoadDefectList ps s = installDefects p ds s := by
  have hps : ps ≠ [] := by rintro rfl; simp at hlen
  obtain ⟨hle, hchecks⟩ := (defectChecksAreR14 _ ds).mp hok
  have h2 : ¬ ps.length < 2 := by omega
  have h32 : ¬ 32 < ds.length := by omega
  simp [judgeLoadDefectList, hlock, changeoverOpen_eq hps hp, hclosed, h2, hn, hds, hp, toPort_val, hh, h32, hchecks]

theorem installDefects_at_once {p : PortId} {ds : List Defect} {s : State}
    (h : s.control.op ≠ .online ∨ leadingLine s (barOf p) = none) :
    installDefects p ds s = (setDefects p ds s,
      .done .ok [BitVec.ofNat 8 p.val, BitVec.ofNat 8 ds.length, 0, 0, 0, 0, 0]) := by
  have hline : (if s.control.op = .online then leadingLine s (barOf p) else none) = none := by
    split
    · exact h.resolve_left (not_not.mpr ‹_›)
    · rfl
  simp [installDefects, hline, reply]

theorem installDefects_under_changeover {p : PortId} {ds : List Defect} {s : State} {line : Nat × Nat × Nat}
    (hop : s.control.op = .online) (h : leadingLine s (barOf p) = some line) :
    installDefects p ds s = (setDefects p ds (openChangeover p line s),
      .done .ok ([BitVec.ofNat 8 p.val, BitVec.ofNat 8 ds.length, 1] ++ leBytes 2 line.1 ++ leBytes 2 line.2.1)) := by
  simp [installDefects, hop, h, reply]

/-- Settles O29. -/
theorem defectListTaken : Obligations.DefectListTaken := by
  intro ps p h ds s htakes hlong hlen hp hn
  have htaken : exec (.loadDefectList ps) s = .next (settled (judgeLoadDefectList ps (admitted 0x32 s))) :=
    congrArg Host.Outcome.next (takeRequest_taken htakes (by omega) 0x32 _)
  have hps : ps ≠ [] := by rintro rfl; simp at hlen
  rw [htaken]
  refine ⟨fun hlock => ?_, fun hlock hop hopen => ?_, fun hlock hh hds hok => ⟨fun hidle => ?_, ?_⟩⟩
  · have : judgeLoadDefectList ps (admitted 0x32 s) = reply .guarded [] (admitted 0x32 s) := if_pos hlock
    rw [this]
    exact congrArg _ (settled_reply htakes 0x32 .guarded [])
  · have : judgeLoadDefectList ps (admitted 0x32 s) = reply .wrongState [] (admitted 0x32 s) := by
      simp [judgeLoadDefectList, hlock, hop, changeoverOpen_eq hps hp, hopen]
    rw [this]
    exact congrArg _ (settled_reply htakes 0x32 .wrongState [])
  · rw [judgeLoadDefectList_accepts (s := admitted 0x32 s) hlen hp hn hlock ?_ hh hds hok, installDefects_at_once ?_]
    · exact congrArg _ (settled_done (t := setDefects p ds s) htakes rfl 0x32 _ _)
    · exact hidle.imp_right fun ⟨_, _, hrows⟩ => leadingLine_eq_none hrows
    · rintro ⟨hop, hopen⟩
      obtain hne | ⟨-, hnone, -⟩ := hidle
      · exact hne hop
      · simp [hnone] at hopen
  · intro page line start hop hnone hlead
    rw [judgeLoadDefectList_accepts (s := admitted 0x32 s) hlen hp hn hlock (by simp [hnone]) hh hds hok,
      installDefects_under_changeover (s := admitted 0x32 s) hop hlead]
    exact congrArg _ (settled_done (t := setDefects p ds (openChangeover p (page, line, start) s)) htakes rfl 0x32 _ _)

/-! ### The beginning and the end of DRAINING -/

/-- The reports once the starve condition has been left (R69, R97). -/
def reportsUnstarved (s : State) : Reports :=
  if s.store.starve then
    { queue := postTo s.motion.pos .starve (.starve false none) s.reports.queue, attention := true }
  else s.reports

/-- The teardown leaves the starve condition if it holds (R159 step 1). -/
theorem leaveStarve_if_starved (s : State) :
    (if s.store.starve then leaveStarve s else s) =
      { s with
        store := { s.store with starve := false, slowdown := if s.store.starve then false else s.store.slowdown }
        reports := reportsUnstarved s } := by
  cases h : s.store.starve with
  | false =>
    obtain ⟨_, _, _, _, _, ⟨_, starve, _, _, _, _, _, _⟩, _, _, _, _, _⟩ := s
    subst h
    rfl
  | true =>
    have hpost := post_attention .starve (.starve false none) s
    simp only [post] at hpost
    simp [leaveStarve, post, reportsUnstarved, h, hpost]

/-- A port's link and its waiting requesters at the teardown. -/
theorem withoutLoads_eq (p : Port) :
    p.withoutLoads = { p with
      link := if (carriedLoad p.link).isSome then none else p.link
      waiting := p.waiting.filter fun q => q = .query } := by
  obtain ⟨_, _, _, _, link, _⟩ := p
  cases link with
  | none => rfl
  | some ex => by_cases h : ex.header.kind = .load <;> simp [Port.withoutLoads, carriedLoad, h]

/-- The part as the teardown leaves it (R159 steps 1 to 5). -/
theorem teardown_eq (s : State) :
    teardown s =
      { s with
        pages := []
        rows := s.rows.map fun r => r.map Row.windDown
        ports := s.ports.map Port.withoutLoads
        geometry := { s.geometry with changeovers := Vector.replicate 4 none }
        store := { s.store with
          bars := Vector.ofFn fun b => tornDownBar s.store.bars b
          starve := false
          slowdown := if s.store.starve then false else s.store.slowdown }
        reports := reportsUnstarved s } := by
  simp only [teardown, leaveStarve_if_starved]

theorem judgeGoOffline_online {s : State} (h : s.control.op = .online) : judgeGoOffline [] s = beginDraining false s := by
  simp [judgeGoOffline, h]

theorem judgeClear_online {s : State} (h : s.control.op = .online) : judgeClear [] s = beginDraining true s := by
  simp [judgeClear, h]

theorem atRest_iff {row : Option Row} : atRest row = true ↔ ∀ x, row = some x → x.drive = .rest := by
  cases row <;> simp [atRest]

theorem allAtRest_iff {s : State} : allAtRest s = true ↔ ∀ r row, s.row r = some row → row.drive = .rest := by
  simp [allAtRest, atRest_iff, mem_allRows]

theorem enterSetup_eq (clear : Bool) (count : Nat) (s : State) :
    enterSetup clear count s =
      finishWork .ok [BitVec.ofNat 8 count]
        { s with
          control := { s.control with op := .setup }
          rows := Vector.replicate 32 none
          reports := if clear then { queue := [], attention := false } else s.reports
          store := if clear then { s.store with capture := none, corrected := 0, uncorrected := 0 }
            else s.store } := by
  cases clear <;> rfl

/-- Settles O25. -/
theorem drainingBeginsAndEnds : Obligations.DrainingBeginsAndEnds := by
  refine ⟨fun c code clear s htakes hop hc => ?_, fun clear count s hbusy => ⟨fun hrest => ?_, fun hplay => ?_⟩⟩
  · have htaken : exec c s = .next (settled (beginDraining clear (admitted code s))) := by
      obtain ⟨rfl, rfl, rfl⟩ | ⟨rfl, rfl, rfl⟩ := hc
      · rw [← judgeGoOffline_online (s := admitted 0x21 s) hop]
        exact congrArg Host.Outcome.next (takeRequest_taken htakes (by simp) 0x21 _)
      · rw [← judgeClear_online (s := admitted 0x22 s) hop]
        exact congrArg Host.Outcome.next (takeRequest_taken htakes (by simp) 0x22 _)
    refine ⟨_, htaken, ?_⟩
    simp only [beginDraining, settled, teardown_eq]
    refine ⟨rfl, rfl, rfl, rfl, rfl, rfl, fun r => ?_, fun p => ?_, rfl, rfl, rfl, fun b => ?_, fun b => ?_, rfl, rfl,
      rfl, rfl, rfl, rfl, fun hstarve => ?_, fun hstarve => ?_⟩
    · exact entry_map _ s.rows r
    · exact (entry_map _ s.ports p).trans (withoutLoads_eq _)
    · simp
    · exact entry_ofFn _ b
    · simp [reportsUnstarved, hstarve]
    · simp [reportsUnstarved, hstarve]
  · have hall := allAtRest_iff.mpr hrest
    simp [exec, execDrainComplete, hbusy, hall, enterSetup_eq]
  · obtain ⟨r, row, hrow, hdrive⟩ := hplay
    have hall : ¬ allAtRest s = true := fun h => hdrive (allAtRest_iff.mp h r row hrow)
    simp [exec, execDrainComplete, hbusy, hall]

end Sys2Proof.Machine
end

section
/-! PROOF. The heads of a bar in order: which are defined, which stand side by side, the layout and mask checks of
GO ONLINE, and the bar width (R5 to R7, R13, R157). -/

namespace Sys2Proof.Machine

/-! ### The defined heads of a bar -/

theorem mem_allPorts (p : PortId) : p ∈ allPorts := by
  revert p
  decide

theorem allPorts_sorted : allPorts.Pairwise (· < ·) := by decide

theorem mem_barPorts {b : BarId} {p : PortId} : p ∈ barPorts b ↔ barOf p = b := by
  simp [barPorts, mem_allPorts]

theorem barPorts_length (b : BarId) : (barPorts b).length = 4 := by
  revert b
  decide

/-- The ports of one bar are consecutive numbers. -/
theorem barOf_between {x y z : PortId} (h : barOf x = barOf y) (hxz : x < z) (hzy : z < y) : barOf z = barOf x := by
  simp only [barOf, Fin.ext_iff, Fin.lt_def] at *
  omega

theorem mem_definedHeads {g : Geometry} {b : BarId} {p : PortId} {h : Head} :
    (p, h) ∈ definedHeads g b ↔ barOf p = b ∧ entry g.heads p = some h := by
  simp [definedHeads, mem_barPorts]

/-- The ports of the defined heads, in ascending order. -/
theorem definedHeads_ports (g : Geometry) (b : BarId) :
    (definedHeads g b).map Prod.fst = allPorts.filter fun p => decide (barOf p = b) && (entry g.heads p).isSome := by
  have key : ∀ l : List PortId, ((l.filterMap fun p => (entry g.heads p).map fun h => (p, h)).map Prod.fst) =
      l.filter fun p => (entry g.heads p).isSome := by
    intro l
    induction l with
    | nil => rfl
    | cons p l ih => cases h : entry g.heads p <;> simp [h, ih]
  rw [definedHeads, key, barPorts, List.filter_filter]
  simp only [Bool.and_comm]

theorem definedHeads_sorted (g : Geometry) (b : BarId) : (definedHeads g b).Pairwise fun x y => x.1 < y.1 := by
  rw [← List.pairwise_map (f := Prod.fst) (R := (· < ·)), definedHeads_ports]
  exact allPorts_sorted.filter _

theorem definedHeads_length (g : Geometry) (b : BarId) :
    (definedHeads g b).length =
      (allPorts.filter fun p => decide (barOf p = b) && (entry g.heads p).isSome).length := by
  rw [← definedHeads_ports, List.length_map]

theorem definedHeads_length_le (g : Geometry) (b : BarId) : (definedHeads g b).length ≤ 4 :=
  (List.length_filterMap_le _ _).trans (barPorts_length b).le

theorem definedHeads_eq_nil {g : Geometry} {b : BarId} :
    definedHeads g b = [] ↔ ∀ p : PortId, barOf p = b → entry g.heads p = none := by
  simp [definedHeads, mem_barPorts]

theorem hasHeads_iff {g : Geometry} {b : BarId} :
    hasHeads g b = true ↔ ∃ p : PortId, barOf p = b ∧ (entry g.heads p).isSome = true := by
  rw [hasHeads, Bool.not_eq_true', ← Bool.not_eq_true, List.isEmpty_iff, definedHeads_eq_nil]
  simp [Option.ne_none_iff_isSome]

/-- A head stands before the heads at higher ports and behind those at lower ports. -/
theorem definedHeads_split {g : Geometry} {b : BarId} {front back : List (PortId × Head)} {x : PortId × Head}
    (h : definedHeads g b = front ++ x :: back) : (∀ z ∈ front, z.1 < x.1) ∧ ∀ z ∈ back, x.1 < z.1 := by
  have hs := definedHeads_sorted g b
  rw [h, List.pairwise_append, List.pairwise_cons] at hs
  obtain ⟨-, ⟨hback, -⟩, hfront⟩ := hs
  exact ⟨fun z hz => hfront z hz x (List.mem_cons_self ..), hback⟩

/-- A defined head with no defined head at a higher port of its bar is the last one. -/
theorem definedHeads_last {g : Geometry} {p : PortId} {h : Head} (hh : entry g.heads p = some h)
    (hlast : ∀ q : PortId, barOf q = barOf p → p < q → entry g.heads q = none) :
    (definedHeads g (barOf p)).getLast? = some (p, h) := by
  obtain ⟨front, back, hsplit⟩ := List.append_of_mem (mem_definedHeads.mpr ⟨rfl, hh⟩)
  have hback : back = [] := by
    refine List.eq_nil_iff_forall_not_mem.mpr fun z hz => ?_
    have hz' := mem_definedHeads.mp (hsplit ▸ List.mem_append_right front (List.mem_cons_of_mem _ hz))
    have := hlast z.1 hz'.1 ((definedHeads_split hsplit).2 z hz)
    simp [hz'.2] at this
  simp [hsplit, hback]

/-- The bar is as wide as its last head reaches (R6). -/
theorem barWidth_of_last {g : Geometry} {p : PortId} {h : Head} (hh : entry g.heads p = some h)
    (hlast : ∀ q : PortId, barOf q = barOf p → p < q → entry g.heads q = none) :
    barWidth g (barOf p) = h.origin + h.size.count := by
  rw [barWidth, definedHeads_last hh hlast]

theorem barWidth_of_none {g : Geometry} {b : BarId} (h : ∀ p : PortId, barOf p = b → entry g.heads p = none) :
    barWidth g b = 0 := by
  rw [barWidth, definedHeads_eq_nil.mpr h]
  rfl

/-! ### Consecutive pairs -/

theorem mem_pairsFrom {i : Nat} {l : List (PortId × Head)} {pr : HeadPair} :
    pr ∈ pairsFrom i l ↔ ∃ front x y back, l = front ++ x :: y :: back ∧
      pr = { index := i + front.length, leftPort := x.1, left := x.2, rightPort := y.1, right := y.2 } := by
  induction l generalizing i with
  | nil => simp [pairsFrom]
  | cons x l ih =>
    cases l with
    | nil => simp [pairsFrom, List.cons_eq_append_iff]
    | cons y rest =>
      rw [pairsFrom, List.mem_cons, ih]
      constructor
      · rintro (rfl | ⟨front, u, v, back, hl, rfl⟩)
        · exact ⟨[], x, y, rest, rfl, rfl⟩
        · exact ⟨x :: front, u, v, back, by simp [hl], by simp; omega⟩
      · rintro ⟨front, u, v, back, hl, rfl⟩
        cases front with
        | nil =>
          obtain ⟨rfl, rfl, rfl⟩ : x = u ∧ y = v ∧ rest = back := by simpa using hl
          exact .inl rfl
        | cons w front =>
          exact .inr ⟨front, u, v, back, (List.cons.inj hl).2, by simp; omega⟩

/-- The index of a pair counts the defined heads at lower ports than its left one. -/
theorem headsBelow_eq {g : Geometry} {b : BarId} {front back : List (PortId × Head)} {x : PortId × Head}
    (h : definedHeads g b = front ++ x :: back) : headsBelow g x.1 = front.length := by
  obtain ⟨hfront, hback⟩ := definedHeads_split h
  have hbar : barOf x.1 = b := (mem_definedHeads.mp (h ▸ List.mem_append_right front (List.mem_cons_self ..))).1
  have hfilter : ((definedHeads g b).map Prod.fst).filter (fun z => decide (z < x.1)) = front.map Prod.fst := by
    rw [h, List.map_append, List.filter_append, List.filter_eq_self.mpr, List.filter_eq_nil_iff.mpr, List.append_nil]
    · simp only [List.map_cons, List.forall_mem_cons, List.forall_mem_map, decide_eq_true_eq]
      exact ⟨lt_irrefl _, fun z hz => (hback z hz).asymm⟩
    · simpa using fun a c hz => hfront (a, c) hz
  rw [definedHeads_ports, List.filter_filter] at hfilter
  rw [← List.length_map (f := Prod.fst) (as := front), ← hfilter, headsBelow, hbar]
  congr 2
  funext z
  cases decide (barOf z = b) <;> cases decide (z < x.1) <;> simp

/-- The consecutive pairs of a bar (R6). -/
theorem mem_headPairs {g : Geometry} {b : BarId} {pr : HeadPair} :
    pr ∈ headPairs g b ↔ barOf pr.leftPort = b ∧ Consecutive g pr.leftPort pr.rightPort pr.left pr.right ∧
      pr.index = headsBelow g pr.leftPort := by
  rw [headPairs, mem_pairsFrom]
  constructor
  · rintro ⟨front, x, y, back, hl, rfl⟩
    have hmem : ∀ z ∈ front ++ x :: y :: back, barOf z.1 = b ∧ entry g.heads z.1 = some z.2 :=
      fun z hz => mem_definedHeads.mp (hl ▸ hz)
    obtain ⟨hxb, hx⟩ := hmem x (by simp)
    obtain ⟨hyb, hy⟩ := hmem y (by simp)
    obtain ⟨hfront, hbehind⟩ := definedHeads_split hl
    have hback := (definedHeads_split (front := front ++ [x]) (back := back) (x := y) (by simpa using hl)).2
    refine ⟨hxb, ⟨hxb.trans hyb.symm, hbehind y (by simp), hx, hy, fun z hxz hzy => ?_⟩, ?_⟩
    · by_contra hz
      obtain ⟨hd, hz⟩ := Option.ne_none_iff_exists'.mp hz
      have hzmem : (z, hd) ∈ front ++ x :: y :: back :=
        hl ▸ mem_definedHeads.mpr ⟨(barOf_between (hxb.trans hyb.symm) hxz hzy).trans hxb, hz⟩
      simp only [List.mem_append, List.mem_cons] at hzmem
      rcases hzmem with h | rfl | rfl | h
      · exact (hfront _ h).asymm hxz
      · exact lt_irrefl _ hxz
      · exact lt_irrefl _ hzy
      · exact (hback _ h).asymm hzy
    · simp [headsBelow_eq hl]
  · obtain ⟨index, x, hx, y, hy⟩ := pr
    rintro ⟨hb, ⟨hbar, hlt, hxh, hyh, hbetween⟩, hindex⟩
    dsimp only at *
    obtain ⟨front, rest, hl⟩ := List.append_of_mem (mem_definedHeads.mpr ⟨hb, hxh⟩)
    obtain ⟨hfront, hrest⟩ := definedHeads_split hl
    have hymem : (y, hy) ∈ front ++ (x, hx) :: rest := hl ▸ mem_definedHeads.mpr ⟨hbar ▸ hb, hyh⟩
    have hyrest : (y, hy) ∈ rest := by
      rcases List.mem_append.mp hymem with h | h
      · exact absurd hlt (hfront _ h).asymm
      · rcases List.mem_cons.mp h with h | h
        · simp only [Prod.mk.injEq] at h
          exact absurd hlt (by simp [h.1])
        · exact h
    cases rest with
    | nil => simp at hyrest
    | cons v back =>
      obtain ⟨-, hv⟩ := mem_definedHeads.mp (hl ▸ List.mem_append_right front (by simp) : v ∈ definedHeads g b)
      have hv' : v = (y, hy) := by
        rcases List.mem_cons.mp hyrest with h | h
        · exact h.symm
        · have hvy := (definedHeads_split (front := front ++ [(x, hx)]) (back := back) (x := v)
            (by simpa using hl)).2 _ h
          have := hbetween v.1 (hrest v (by simp)) hvy
          simp [hv] at this
      subst hv'
      exact ⟨front, (x, hx), (y, hy), back, hl, by simp [hindex, headsBelow_eq hl]⟩

/-- A bar has at most three pairs. -/
theorem headsBelow_lt {g : Geometry} {x y : PortId} {hx hy : Head} (h : Consecutive g x y hx hy) :
    headsBelow g x < 3 := by
  have hpr : (⟨headsBelow g x, x, hx, y, hy⟩ : HeadPair) ∈ headPairs g (barOf x) := mem_headPairs.mpr ⟨rfl, h, rfl⟩
  rw [headPairs, mem_pairsFrom] at hpr
  obtain ⟨front, u, v, back, hl, he⟩ := hpr
  have hlen := definedHeads_length_le g (barOf x)
  simp only [HeadPair.mk.injEq] at he
  rw [hl, List.length_append, List.length_cons, List.length_cons] at hlen
  omega

/-- The seams of a bar: the pairs that overlap (R7). -/
theorem mem_seams {g : Geometry} {b : BarId} {pr : HeadPair} :
    pr ∈ seams g b ↔ (barOf pr.leftPort = b ∧ Consecutive g pr.leftPort pr.rightPort pr.left pr.right ∧
      pr.index = headsBelow g pr.leftPort) ∧ pr.right.origin < pr.left.origin + pr.left.size.count := by
  rw [seams, List.mem_filter, mem_headPairs, decide_eq_true_eq, overlap]
  constructor <;> rintro ⟨h1, h2⟩ <;> exact ⟨h1, by omega⟩

theorem maskAt_eq_some {g : Geometry} {b : BarId} {i : Nat} {m : Mask} :
    maskAt g b i = some m ↔ ∃ j : Fin 3, j.val = i ∧ entry (entry g.masks b) j = some m := by
  unfold maskAt
  split
  · rename_i h
    constructor
    · exact fun hm => ⟨⟨i, h⟩, rfl, hm⟩
    · rintro ⟨j, rfl, hm⟩
      exact hm
  · rename_i h
    simp only [reduceCtorEq, false_iff, not_exists, not_and]
    rintro j rfl
    exact absurd j.isLt h

end Sys2Proof.Machine
end

section
/-! PROOF. GO ONLINE (O23); DEFINE HEAD and LOAD STITCH MASK (O27). -/

namespace Sys2Proof.Machine

/-! ### The layout and the masks of a bar -/

/-- Item 2 of R157 on one pair: the origins rise, and the heads meet or overlap by at most 64 columns. -/
def HeadPair.Aligned (pr : HeadPair) : Prop :=
  pr.left.origin < pr.right.origin ∧ pr.right.origin ≤ pr.left.origin + pr.left.size.count ∧
    pr.left.origin + pr.left.size.count ≤ pr.right.origin + 64

theorem layoutOk_eq_true {g : Geometry} {b : BarId} :
    layoutOk g b = true ↔ (∀ x, (definedHeads g b).head? = some x → x.2.origin = 0 ∧ barWidth g b ≤ 4096) ∧
      ∀ pr ∈ headPairs g b, pr.Aligned := by
  have haligned : ∀ pr : HeadPair, (decide (pr.left.origin < pr.right.origin) &&
        decide (0 ≤ overlap pr.left pr.right) && decide (overlap pr.left pr.right ≤ 64)) = true ↔ pr.Aligned := by
    intro pr
    simp only [Bool.and_eq_true, decide_eq_true_eq]
    unfold overlap HeadPair.Aligned
    omega
  unfold layoutOk
  split
  · rename_i h
    simp [h, headPairs, pairsFrom]
  · rename_i p h rest hl
    simp only [Bool.and_eq_true, decide_eq_true_eq, List.all_eq_true, hl, List.head?_cons, Option.some.injEq,
      forall_eq', ← haligned]
    tauto

/-- The first defined head of a bar is the one with no defined head at a lower port. -/
theorem definedHeads_head {g : Geometry} {b : BarId} {p : PortId} {h : Head} :
    (definedHeads g b).head? = some (p, h) ↔ barOf p = b ∧ entry g.heads p = some h ∧
      ∀ q : PortId, barOf q = b → q < p → entry g.heads q = none := by
  constructor
  · intro hhead
    obtain ⟨rest, hl⟩ := List.head?_eq_some_iff.mp hhead
    obtain ⟨hb, hh⟩ := mem_definedHeads.mp (hl ▸ List.mem_cons_self .. : (p, h) ∈ definedHeads g b)
    refine ⟨hb, hh, fun q hq hlt => ?_⟩
    by_contra hne
    obtain ⟨x, hx⟩ := Option.ne_none_iff_exists'.mp hne
    have hmem : (q, x) ∈ (p, h) :: rest := hl ▸ mem_definedHeads.mpr ⟨hq, hx⟩
    rcases List.mem_cons.mp hmem with he | hmem
    · simp only [Prod.mk.injEq] at he
      simp [he.1] at hlt
    · exact ((definedHeads_split (front := []) hl).2 _ hmem).asymm hlt
  · rintro ⟨hb, hh, hlow⟩
    obtain ⟨front, back, hl⟩ := List.append_of_mem (mem_definedHeads.mpr ⟨hb, hh⟩)
    have hfront : front = [] := by
      refine List.eq_nil_iff_forall_not_mem.mpr fun z hz => ?_
      have hz' := mem_definedHeads.mp (hl ▸ List.mem_append_left _ hz : z ∈ definedHeads g b)
      have := hlow z.1 hz'.1 ((definedHeads_split hl).1 z hz)
      simp [hz'.2] at this
    simp [hl, hfront]

/-- A bar with heads has a last one. -/
theorem exists_lastHead {g : Geometry} {b : BarId} (hne : definedHeads g b ≠ []) :
    ∃ (p : PortId) (h : Head), barOf p = b ∧ entry g.heads p = some h ∧
      ∀ q : PortId, barOf q = b → p < q → entry g.heads q = none := by
  obtain ⟨front, ⟨p, h⟩, hl⟩ := (List.eq_nil_or_concat' _).resolve_left hne
  obtain ⟨hb, hh⟩ := mem_definedHeads.mp (hl ▸ List.mem_append_right front (List.mem_cons_self ..) :
    (p, h) ∈ definedHeads g b)
  refine ⟨p, h, hb, hh, fun q hq hlt => ?_⟩
  by_contra hne
  obtain ⟨x, hx⟩ := Option.ne_none_iff_exists'.mp hne
  have hmem : (q, x) ∈ front ++ [(p, h)] := hl ▸ mem_definedHeads.mpr ⟨hq, hx⟩
  rcases List.mem_append.mp hmem with hmem | hmem
  · exact ((definedHeads_split hl).1 _ hmem).asymm hlt
  · simp only [List.mem_singleton, Prod.mk.injEq] at hmem
    simp [hmem.1] at hlt

/-- Item 2 of R157, head by head. -/
theorem layoutOk_iff (g : Geometry) (b : BarId) :
    layoutOk g b = true ↔
      (∀ (p : PortId) (h : Head), barOf p = b → entry g.heads p = some h →
        ((∀ q : PortId, barOf q = b → q < p → entry g.heads q = none) → h.origin = 0) ∧
        ((∀ q : PortId, barOf q = b → p < q → entry g.heads q = none) → h.origin + h.size.count ≤ 4096)) ∧
      ∀ x y hx hy, barOf x = b → Consecutive g x y hx hy →
        hx.origin < hy.origin ∧ hy.origin ≤ hx.origin + hx.size.count ∧
          hx.origin + hx.size.count ≤ hy.origin + 64 := by
  rw [layoutOk_eq_true]
  refine and_congr ⟨fun hfirst p h hb hh => ⟨fun hlow => ?_, fun hhigh => ?_⟩, fun hall x hx => ?_⟩
    ⟨fun hpairs x y hx hy hb hc => ?_, fun hall pr hpr => ?_⟩
  · exact (hfirst (p, h) (definedHeads_head.mpr ⟨hb, hh, hlow⟩)).1
  · subst hb
    obtain ⟨x, hx⟩ := Option.isSome_iff_exists.mp
      (List.isSome_head?.mpr (List.ne_nil_of_mem (mem_definedHeads.mpr ⟨rfl, hh⟩)))
    exact barWidth_of_last hh hhigh ▸ (hfirst x hx).2
  · obtain ⟨hb, hh, hlow⟩ := definedHeads_head.mp hx
    obtain ⟨p, h, rfl, hp, hhigh⟩ := exists_lastHead (List.ne_nil_of_mem (List.mem_of_mem_head? hx))
    exact ⟨(hall x.1 x.2 hb hh).1 hlow, barWidth_of_last hp hhigh ▸ (hall p h rfl hp).2 hhigh⟩
  · exact hpairs ⟨headsBelow g x, x, hx, y, hy⟩ (mem_headPairs.mpr ⟨hb, hc, rfl⟩)
  · obtain ⟨hb, hc, -⟩ := mem_headPairs.mp hpr
    exact hall _ _ _ _ hb hc

/-- Item 3 of R157, pair by pair. -/
theorem masksOk_iff (g : Geometry) (b : BarId) :
    masksOk g b = true ↔ ∀ x y hx hy, barOf x = b → Consecutive g x y hx hy → hy.origin < hx.origin + hx.size.count →
      ∃ (i : Fin 3) (m : Mask), i.val = headsBelow g x ∧ entry (entry g.masks b) i = some m ∧
        hy.origin + m.columns.length = hx.origin + hx.size.count := by
  have hfits : ∀ pr : HeadPair, (match maskAt g b pr.index with
      | some m => decide ((m.columns.length : Int) = overlap pr.left pr.right)
      | none => false) = true ↔ ∃ (i : Fin 3) (m : Mask), i.val = pr.index ∧ entry (entry g.masks b) i = some m ∧
        pr.right.origin + m.columns.length = pr.left.origin + pr.left.size.count := by
    intro pr
    split
    · rename_i m hm
      obtain ⟨j, hj, hjm⟩ := maskAt_eq_some.mp hm
      rw [decide_eq_true_eq, overlap]
      constructor
      · exact fun h => ⟨j, m, hj, hjm, by omega⟩
      · rintro ⟨i, m', hi, him, h⟩
        obtain rfl : m' = m := Option.some.inj ((maskAt_eq_some.mpr ⟨i, hi, him⟩).symm.trans hm)
        omega
    · rename_i hm
      simp only [Bool.false_eq_true, false_iff, not_exists, not_and]
      intro i m hi him
      simp [maskAt_eq_some.mpr ⟨i, hi, him⟩] at hm
  simp only [masksOk, List.all_eq_true]
  constructor
  · intro h x y hx hy hb hc hover
    exact (hfits ⟨headsBelow g x, x, hx, y, hy⟩).mp (h _ (mem_seams.mpr ⟨⟨hb, hc, rfl⟩, hover⟩))
  · intro h pr hpr
    obtain ⟨⟨hb, hc, hi⟩, hover⟩ := mem_seams.mp hpr
    exact (hfits pr).mpr (hi ▸ h _ _ _ _ hb hc hover)

/-! ### The items of R157 in order -/

theorem allBars_find {P : BarId → Bool} {b : BarId} (hb : P b = true) (hlow : ∀ x : BarId, x < b → P x = false) :
    allBars.find? P = some b := by
  have hsplit : allBars = allBars.take b.val ++ b :: allBars.drop (b.val + 1) ∧
      ∀ x ∈ allBars.take b.val, x < b := by
    clear hb hlow
    revert b
    decide
  rw [List.find?_eq_some_iff_append]
  exact ⟨hb, _, _, hsplit.1, fun x hx => by simp [hlow x (hsplit.2 x hx)]⟩

theorem allBars_find_none {P : BarId → Bool} : allBars.find? P = none ↔ ∀ b, P b = false := by
  simp [mem_allBars]

/-- The first defined port from a port number on heads the list of those still to be probed. -/
theorem definedFrom_eq_cons {g : Geometry} {n : Nat} {p : PortId} (hn : n ≤ p.val)
    (hp : (entry g.heads p).isSome = true) (hlow : ∀ q : PortId, n ≤ q.val → q < p → entry g.heads q = none) :
    ∃ rest, definedFrom g n = p :: rest := by
  obtain ⟨front, back, hl⟩ := List.append_of_mem (mem_allPorts p)
  have hsorted := allPorts_sorted
  rw [hl, List.pairwise_append] at hsorted
  refine ⟨back.filter fun p => decide (n ≤ p.val) && (entry g.heads p).isSome, ?_⟩
  rw [definedFrom, hl, List.filter_append, List.filter_eq_nil_iff.mpr, List.nil_append, List.filter_cons_of_pos]
  · simp [hn, hp]
  · intro q hq
    simp only [Bool.and_eq_true, decide_eq_true_eq, not_and]
    intro hnq
    simp [hlow q hnq (hsorted.2.2 q hq p (List.mem_cons_self ..))]

section
variable {s : State}

theorem configFailure_no_port (h : ∀ p : PortId, entry s.geometry.heads p = none) :
    configFailure s = some (1, 255) := by
  simp [configFailure, h]

theorem not_all_undefined (hport : ∃ p : PortId, (entry s.geometry.heads p).isSome = true) :
    ¬ (allPorts.all fun p => (entry s.geometry.heads p).isNone) = true := by
  obtain ⟨p, hp⟩ := hport
  intro h
  have := List.all_eq_true.mp h p (mem_allPorts p)
  simp_all

theorem layout_find (hlayout : ∀ b : BarId, layoutOk s.geometry b = true) :
    allBars.find? (fun b => !layoutOk s.geometry b) = none :=
  allBars_find_none.mpr fun b => by simp [hlayout b]

theorem masks_find (hmasks : ∀ b : BarId, masksOk s.geometry b = true) :
    allBars.find? (fun b => !masksOk s.geometry b) = none :=
  allBars_find_none.mpr fun b => by simp [hmasks b]

theorem waveforms_find (hwaves : ∀ b : BarId, hasHeads s.geometry b = true → entry s.drives.waveforms b ≠ []) :
    allBars.find? (fun b => hasHeads s.geometry b && (entry s.drives.waveforms b).isEmpty) = none :=
  allBars_find_none.mpr fun b => by simpa using hwaves b

variable (hport : ∃ p : PortId, (entry s.geometry.heads p).isSome = true)
include hport

theorem configFailure_layout {b : BarId} (hb : layoutOk s.geometry b = false)
    (hlow : ∀ x : BarId, x < b → layoutOk s.geometry x = true) : configFailure s = some (2, b.val) := by
  have hfind : allBars.find? (fun b => !layoutOk s.geometry b) = some b :=
    allBars_find (by simp [hb]) fun x hx => by simp [hlow x hx]
  simp only [configFailure, if_neg (not_all_undefined hport), hfind]

variable (hlayout : ∀ b : BarId, layoutOk s.geometry b = true)
include hlayout

theorem configFailure_masks {b : BarId} (hb : masksOk s.geometry b = false)
    (hlow : ∀ x : BarId, x < b → masksOk s.geometry x = true) : configFailure s = some (3, b.val) := by
  have hfind : allBars.find? (fun b => !masksOk s.geometry b) = some b :=
    allBars_find (by simp [hb]) fun x hx => by simp [hlow x hx]
  simp only [configFailure, if_neg (not_all_undefined hport), layout_find hlayout, hfind]

variable (hmasks : ∀ b : BarId, masksOk s.geometry b = true)
include hmasks

theorem configFailure_waveforms {b : BarId} (hhas : hasHeads s.geometry b = true)
    (hb : entry s.drives.waveforms b = [])
    (hlow : ∀ x : BarId, x < b → hasHeads s.geometry x = true → entry s.drives.waveforms x ≠ []) :
    configFailure s = some (4, b.val) := by
  have hfind : allBars.find? (fun b => hasHeads s.geometry b && (entry s.drives.waveforms b).isEmpty) = some b :=
    allBars_find (by simp [hhas, hb]) fun x hx => by simpa using hlow x hx
  simp only [configFailure, if_neg (not_all_undefined hport), layout_find hlayout, masks_find hmasks, hfind]

variable (hwaves : ∀ b : BarId, hasHeads s.geometry b = true → entry s.drives.waveforms b ≠ [])
include hwaves

theorem configFailure_rings {b : BarId} (hhas : hasHeads s.geometry b = true) (hb : (s.bar b).capacity < 2)
    (hlow : ∀ x : BarId, x < b → hasHeads s.geometry x = true → 2 ≤ (s.bar x).capacity) :
    configFailure s = some (5, b.val) := by
  have hfind : allBars.find? (fun b => hasHeads s.geometry b && decide ((s.bar b).capacity < 2)) = some b :=
    allBars_find (by simp [hhas, hb]) fun x hx => by simpa [Nat.succ_le_iff] using hlow x hx
  simp only [configFailure, if_neg (not_all_undefined hport), layout_find hlayout, masks_find hmasks,
    waveforms_find hwaves, hfind]

theorem configFailure_motion (hrings : ∀ b : BarId, hasHeads s.geometry b = true → 2 ≤ (s.bar b).capacity) :
    configFailure s = if s.control.motionSet then none else some (6, 255) := by
  have hfind : allBars.find? (fun b => hasHeads s.geometry b && decide ((s.bar b).capacity < 2)) = none :=
    allBars_find_none.mpr fun b => by simpa [Nat.succ_le_iff] using hrings b
  simp only [configFailure, if_neg (not_all_undefined hport), layout_find hlayout, masks_find hmasks,
    waveforms_find hwaves, hfind]

end

/-! ### GO ONLINE taken -/

theorem goOnline_taken {s : State} (h : Takes .request s) :
    exec (.goOnline []) s = .next (settled (judgeGoOnline [] (admitted 0x20 s))) :=
  congrArg Host.Outcome.next (takeRequest_taken h (by simp) 0x20 _)

theorem judgeGoOnline_fails {s : State} {item place : Nat} (hop : s.control.op = .setup)
    (h : configFailure s = some (item, place)) :
    judgeGoOnline [] s = reply .badConfig [BitVec.ofNat 8 item, BitVec.ofNat 8 place] s := by
  simp [judgeGoOnline, hop, h]

/-- With every item passed the first defined port is probed (R132, R157). -/
theorem judgeGoOnline_begins {s : State} {p : PortId} {h : Head} (hop : s.control.op = .setup)
    (hpass : configFailure s = none) (hp : entry s.geometry.heads p = some h)
    (hlow : ∀ q : PortId, q < p → entry s.geometry.heads q = none) :
    judgeGoOnline [] s = (sendProbe p (s.withOp .starting), .working (.goOnline p)) := by
  obtain ⟨rest, hrest⟩ := definedFrom_eq_cons (g := s.geometry) (n := 0) (p := p) (by omega) (by simp [hp])
    fun q _ hq => hlow q hq
  simp [judgeGoOnline, hop, hpass, hrest]

/-- Settles O23. -/
theorem goOnlineTaken : Obligations.GoOnlineTaken := by
  refine ⟨fun g b => ⟨hasHeads_iff, layoutOk_iff g b, masksOk_iff g b⟩, fun s htakes hop => ⟨?_, ?_, ?_, ?_⟩⟩
  · intro p h hpass hp hlow
    rw [goOnline_taken htakes, judgeGoOnline_begins (s := admitted 0x20 s) hop hpass hp hlow]
    have hsettled := settled_working (s := s) (t := sendProbe p (s.withOp .starting)) rfl 0x20 (.goOnline p)
    refine (congrArg Host.Outcome.next hsettled).trans ?_
    simp [undertaken, sendProbe, headerOnly, headNozzles, headSpeed, hp, State.updatePort, State.withOp, State.port]
  · intro item place hfail
    rw [goOnline_taken htakes, judgeGoOnline_fails (s := admitted 0x20 s) hop hfail]
    exact congrArg _ (settled_reply htakes 0x20 _ _)
  · exact configFailure_no_port
  · intro hport
    exact ⟨fun b => configFailure_layout hport, fun hlayout => ⟨fun b => configFailure_masks hport hlayout,
      fun hmasks => ⟨fun b => configFailure_waveforms hport hlayout hmasks,
        fun hwaves => ⟨fun b => configFailure_rings hport hlayout hmasks hwaves,
          configFailure_motion hport hlayout hmasks hwaves⟩⟩⟩⟩

/-! ### DEFINE HEAD accepted -/

theorem keepsDefects_eq (old : Option Head) (new : Head) :
    keepsDefects old new = decide (old.map (·.size) = some new.size) := by
  cases old <;> simp [keepsDefects]

/-- The record that a block within the limits of R8 carries (R9, R154). -/
theorem head_of_params {h : HeadParams} {size : HeadSize} {speed : PortSpeed} (hsize : h.nozzles = size.count)
    (hspeed : h.speed = match speed with | .fast => 0 | .slow => 1) :
    h.head = { size := size, origin := h.origin, offsetA := h.offsetA, offsetB := h.offsetB, speed := speed } := by
  cases size <;> cases speed <;> simp_all [HeadParams.head, HeadSize.count]

theorem headFailure_define {ps : List Byte} {p : PortId} {size : HeadSize} {speed : PortSpeed}
    (hport : (readHeadParams ps).port = p.val) (huse : (readHeadParams ps).use = 1) (hlen : ps.length = 19)
    (hsize : (readHeadParams ps).nozzles = size.count) (horigin : (readHeadParams ps).origin ≤ 4095)
    (hA : (readHeadParams ps).offsetA ≤ 1099511627775) (hB : (readHeadParams ps).offsetB ≤ 1099511627775)
    (hspeed : (readHeadParams ps).speed = match speed with | .fast => 0 | .slow => 1) : headFailure ps = none := by
  have hnozzles : ¬ ((readHeadParams ps).nozzles ≠ 512 ∧ (readHeadParams ps).nozzles ≠ 1024) := by
    cases size <;> simp [hsize, HeadSize.count]
  have hspeed' : ¬ 1 < (readHeadParams ps).speed := by cases speed <;> simp [hspeed]
  have hp := p.isLt
  simp only [headFailure, check_eq_none, huse, hlen, hport, if_true, Nat.one_ne_zero, if_false, hspeed', hnozzles,
    and_true]
  omega

theorem headFailure_undefine {ps : List Byte} {p : PortId} (hport : (readHeadParams ps).port = p.val)
    (huse : (readHeadParams ps).use = 0) (hlen : ps.length = 2) : headFailure ps = none := by
  have hp := p.isLt
  simp only [headFailure, check_eq_none, huse, hlen, hport, Nat.zero_ne_one, if_true, if_false, and_true]
  omega

/-- DEFINE HEAD past its checks writes the port's record and answers with the bar's figures (R9, R10). -/
theorem judgeDefineHead_accepts {ps : List Byte} {p : PortId} {s : State} (hop : s.control.op = .setup)
    (hlock : s.control.guard.mapLock = false) (hport : (readHeadParams ps).port = p.val)
    (hpass : headFailure ps = none) :
    let t := if (readHeadParams ps).use = 1 then
        setHead p (some (readHeadParams ps).head) (keepsDefects (entry s.geometry.heads p) (readHeadParams ps).head) s
      else setHead p none false s
    judgeDefineHead ps s = (t, .done .ok (barFigures t.geometry (barOf p))) := by
  simp [judgeDefineHead, hop, hlock, hpass, hport, toPort_val, reply]

theorem defineHead_taken {ps : List Byte} {p : PortId} {s : State} (htakes : Takes .request s)
    (hop : s.control.op = .setup) (hlock : s.control.guard.mapLock = false)
    (hport : (readHeadParams ps).port = p.val) (hpass : headFailure ps = none) (hlen : ps.length ≤ 299) :
    exec (.defineHead ps) s = .next
      (let t := if (readHeadParams ps).use = 1 then
          setHead p (some (readHeadParams ps).head)
            (keepsDefects (entry s.geometry.heads p) (readHeadParams ps).head) s
        else setHead p none false s
      answered 0x30 .ok (barFigures t.geometry (barOf p)) t) := by
  refine congrArg Host.Outcome.next ((takeRequest_taken htakes (by omega) 0x30 _).trans ?_)
  rw [judgeDefineHead_accepts (s := admitted 0x30 s) hop hlock hport hpass]
  dsimp only
  split
  · exact settled_done (t := setHead p (some (readHeadParams ps).head) _ s) htakes rfl 0x30 _ _
  · exact settled_done (t := setHead p none false s) htakes rfl 0x30 _ _

/-! ### LOAD STITCH MASK accepted -/

theorem readMaskColumns_columns (columns : List (BitVec 16)) :
    readMaskColumns columns.length ((columns.map fun w => leBytes 2 w.toNat).flatten) = columns := by
  induction columns with
  | nil => rfl
  | cons w ws ih =>
    have hfield := fieldAt_append [] ((ws.map fun w => leBytes 2 w.toNat).flatten) 2 w.toNat (by have := w.isLt; omega)
    simp only [List.nil_append, List.length_nil] at hfield
    have hdrop : (leBytes 2 w.toNat ++ (ws.map fun w => leBytes 2 w.toNat).flatten).drop 2 =
        (ws.map fun w => leBytes 2 w.toNat).flatten := List.drop_left' (leBytes_length 2 _)
    rw [List.map_cons, List.flatten_cons, List.length_cons, readMaskColumns, hfield, hdrop, ih, BitVec.ofNat_toNat,
      BitVec.setWidth_eq]

/-- The block of a LOAD STITCH MASK (R154). -/
def maskBlock (b : BarId) (i : Fin 3) (columns : List (BitVec 16)) : List Byte :=
  [BitVec.ofNat 8 b.val, BitVec.ofNat 8 i.val, BitVec.ofNat 8 columns.length] ++
    (columns.map fun w => leBytes 2 w.toNat).flatten

theorem maskBlock_length (b : BarId) (i : Fin 3) (columns : List (BitVec 16)) :
    (maskBlock b i columns).length = 3 + 2 * columns.length := by
  have hflat : ((columns.map fun w => leBytes 2 w.toNat).flatten).length = 2 * columns.length := by
    induction columns with
    | nil => rfl
    | cons w ws ih => simp [ih]; omega
  simp [maskBlock, hflat]
  omega

theorem maskBlock_fields (b : BarId) (i : Fin 3) {columns : List (BitVec 16)} (hwidth : columns.length ≤ 64) :
    fieldAt (maskBlock b i columns) 0 1 = b.val ∧ fieldAt (maskBlock b i columns) 1 1 = i.val ∧
      fieldAt (maskBlock b i columns) 2 1 = columns.length := by
  have hb := b.isLt
  have hi := i.isLt
  simp only [maskBlock, fieldAt, List.cons_append, List.nil_append, List.drop_zero, List.drop_succ_cons,
    List.take_succ_cons, List.take_zero, leValue, BitVec.toNat_ofNat]
  omega

theorem maskFailure_maskBlock (b : BarId) (i : Fin 3) {columns : List (BitVec 16)} (hwidth : columns.length ≤ 64) :
    maskFailure (maskBlock b i columns) = none := by
  obtain ⟨hb, hi, hw⟩ := maskBlock_fields b i hwidth
  simp only [maskFailure, check_eq_none, hb, hi, hw, maskBlock_length, and_true]
  omega

theorem readMask_maskBlock (b : BarId) (i : Fin 3) (columns : List (BitVec 16)) :
    readMask columns.length (maskBlock b i columns) = if columns = [] then none else some { columns := columns } := by
  have hdrop : (maskBlock b i columns).drop 3 = (columns.map fun w => leBytes 2 w.toNat).flatten := rfl
  simp only [readMask, hdrop, readMaskColumns_columns, List.length_eq_zero_iff]

/-- LOAD STITCH MASK past its checks replaces the contents of its slot (R13). -/
theorem judgeLoadStitchMask_accepts (b : BarId) (i : Fin 3) {columns : List (BitVec 16)} {s : State}
    (hop : s.control.op = .setup) (hlock : s.control.guard.mapLock = false) (hwidth : columns.length ≤ 64) :
    judgeLoadStitchMask (maskBlock b i columns) s =
      (setMask b i (if columns = [] then none else some { columns := columns }) s,
        .done .ok [BitVec.ofNat 8 b.val, BitVec.ofNat 8 i.val, BitVec.ofNat 8 columns.length]) := by
  obtain ⟨hb, hi, hw⟩ := maskBlock_fields b i hwidth
  simp [judgeLoadStitchMask, hop, hlock, maskFailure_maskBlock b i hwidth, hb, hi, hw, readMask_maskBlock,
    Nat.mod_eq_of_lt b.isLt, Nat.mod_eq_of_lt i.isLt, reply, leBytes]

/-- Settles O27. -/
theorem headsAndMasksLoaded : Obligations.HeadsAndMasksLoaded := by
  refine ⟨fun g b => ⟨definedHeads_length g b, fun p h => mem_definedHeads, ?_, barWidth_of_none⟩, ?_, ?_⟩
  · rintro p h rfl
    exact barWidth_of_last
  · intro ps p s htakes hop hlock hport
    refine ⟨fun huse hlen size speed hsize horigin hA hB hspeed => ?_, fun huse hlen => ?_⟩
    · rw [defineHead_taken htakes hop hlock hport
        (headFailure_define hport huse hlen hsize horigin hA hB hspeed) (by omega)]
      simp [huse, head_of_params hsize hspeed, keepsDefects_eq, setHead, barFigures, rowBytes, State.port]
    · rw [defineHead_taken htakes hop hlock hport (headFailure_undefine hport huse hlen) (by omega)]
      simp [huse, setHead, barFigures, rowBytes, State.port]
  · intro b i columns s htakes hop hlock hwidth
    have hlen := maskBlock_length b i columns
    refine congrArg Host.Outcome.next ((takeRequest_taken htakes (by unfold maskBlock at hlen; omega) 0x31 _).trans ?_)
    refine (congrArg settled (judgeLoadStitchMask_accepts (s := admitted 0x31 s) b i hop hlock hwidth)).trans ?_
    exact settled_done (t := setMask b i _ s) htakes rfl 0x31 _ _

end Sys2Proof.Machine
end

section
/-! PROOF. The beginning of a load (O56): its context, the list that governs a line, the seams, and the take of a
stripe. -/

namespace Sys2Proof.Machine

/-! ### Governing lists and seams -/

/-- The list that governs a port's line, clause by clause (R17): a changeover of the port holds its old list up to the
last held line, and the port's record holds the list of every other line. -/
def Governs (g : Geometry) (b : BarId) (start line : Nat) (q : PortId) (ds : List Defect) : Prop :=
  (∀ co, entry g.changeovers b = some co → co.port = q →
    (start < co.start ∨ start = co.start ∧ line ≤ co.line) → ds = co.held) ∧
  ((∀ co, entry g.changeovers b = some co → co.port = q →
    (co.start < start ∨ start = co.start ∧ co.line < line)) → ds = entry g.defects q)

theorem atOrBefore_iff {s k s' k' : Nat} : atOrBefore s k s' k' = true ↔ s < s' ∨ s = s' ∧ k ≤ k' := by
  simp [atOrBefore]

theorem governs_iff {g : Geometry} {start line : Nat} {q : PortId} {ds : List Defect} :
    Governs g (barOf q) start line q ds ↔ ds = governingList g q start line := by
  unfold Governs governingList
  cases hco : entry g.changeovers (barOf q) with
  | none => simp
  | some co =>
    simp only [Option.some.injEq, forall_eq', Bool.and_eq_true, decide_eq_true_eq, atOrBefore_iff]
    by_cases hp : co.port = q
    · by_cases hb : start < co.start ∨ start = co.start ∧ line ≤ co.line
      · have hafter : ¬ (co.start < start ∨ start = co.start ∧ co.line < line) := by omega
        simp [hp, hb, hafter]
      · have hafter : co.start < start ∨ start = co.start ∧ co.line < line := by omega
        simp [hp, hb, hafter]
    · simp [hp]

theorem maskAt_columns (g : Geometry) (b : BarId) (i : Fin 3) :
    (match maskAt g b i.val with | some m => m.columns | none => []) =
      match entry (entry g.masks b) i with | some m => m.columns | none => [] := by
  simp [maskAt]

/-- The seams of a head as a context fixes them (R98). -/
theorem mem_seamViews {g : Geometry} {p : PortId} {start line : Nat} {sv : SeamView} :
    sv ∈ seamViews g p start line ↔
      ∃ (x y : PortId) (hx hy : Head) (i : Fin 3), Consecutive g x y hx hy ∧
        hy.origin < hx.origin + hx.size.count ∧ i.val = headsBelow g x ∧ sv.first = hy.origin ∧
        sv.mask = (match entry (entry g.masks (barOf p)) i with | some m => m.columns | none => []) ∧
        (x = p ∧ sv.isLeft = true ∧ sv.otherOrigin = hy.origin ∧ Governs g (barOf p) start line y sv.other ∨
          y = p ∧ sv.isLeft = false ∧ sv.otherOrigin = hx.origin ∧ Governs g (barOf p) start line x sv.other) := by
  simp only [seamViews, List.mem_filterMap, mem_seams]
  constructor
  · rintro ⟨pr, ⟨⟨hb, hc, hi⟩, hover⟩, hsv⟩
    have hbar := hc.bar
    refine ⟨pr.leftPort, pr.rightPort, pr.left, pr.right, ⟨pr.index, hi ▸ headsBelow_lt hc⟩, hc, hover, hi, ?_⟩
    rw [← maskAt_columns]
    split at hsv
    · rename_i hleft
      cases hsv
      refine ⟨rfl, rfl, .inl ⟨hleft, rfl, rfl, ?_⟩⟩
      rw [← hb, hbar]
      exact governs_iff.mpr rfl
    · split at hsv
      · rename_i hright
        cases hsv
        refine ⟨rfl, rfl, .inr ⟨hright, rfl, rfl, ?_⟩⟩
        rw [← hb]
        exact governs_iff.mpr rfl
      · simp at hsv
  · rintro ⟨x, y, hx, hy, i, hc, hover, hi, hfirst, hmask, hside⟩
    obtain ⟨isLeft, first, mask, otherOrigin, other⟩ := sv
    dsimp only at *
    have hne : x ≠ y := hc.before.ne
    have hbar := hc.bar
    rw [← maskAt_columns, hi] at hmask
    subst hfirst hmask
    refine ⟨⟨headsBelow g x, x, hx, y, hy⟩, ⟨⟨?_, hc, rfl⟩, hover⟩, ?_⟩
    · rcases hside with ⟨rfl, -⟩ | ⟨rfl, -⟩
      · rfl
      · exact hbar
    · rcases hside with ⟨rfl, rfl, rfl, hg⟩ | ⟨rfl, rfl, rfl, hg⟩
      · rw [hbar] at hg
        simp [governs_iff.mp hg] <;> rfl
      · rw [← hbar] at hg
        simp [hne, governs_iff.mp hg] <;> rfl

/-! ### The context and the words read -/

theorem readWords_row (k : ReadKey) (place : Nat) (ws : List Nat) (s : State) (r : RowId) :
    (readWords k place ws s).2.row r = s.row r := State.row_congr (readWords_rows k place ws s) r

/-- Fetching words adds to a context's image and changes nothing else of its row. -/
theorem fetchWords_row {n : Nat} {r : RowId} {s : State} {row : Row} {line : Nat} {ctx : Context}
    (h : s.row r = some { row with latch := .loading line (.assembling ctx) }) :
    ∃ image, (fetchWords n r s).row r =
      some { row with latch := .loading line (.assembling { ctx with image := image }) } := by
  unfold fetchWords
  simp only [h, Option.map_some]
  split
  · exact ⟨ctx.image, h⟩
  · exact ⟨_, by rw [State.row_updateRow_same, readWords_row, h]; rfl⟩

theorem takeStripe_row (b : BarId) (page index : Nat) (s : State) (r : RowId) :
    (takeStripe b page index s).row r = s.row r := State.row_congr (takeStripe_rows b page index s) r

/-- The row of a load that has begun: its latch is LOADING with the cursor's line and the context made of the state
(R80, R98). -/
theorem beginLoadAt_row {n : Nat} {r : RowId} {c : Cursor} {s : State} {row : Row} (h : s.row r = some row) :
    ∃ image, (beginLoadAt n r c s).row r =
      some { row with latch := .loading c.line (.assembling { makeContext s r c with image := image }) } := by
  have hopen : (openContext r c s).row r =
      some { row with latch := .loading c.line (.assembling (makeContext s r c)) } := by
    simp [openContext, h]
  unfold beginLoadAt
  split
  · exact fetchWords_row ((takeStripe_row ..).trans hopen)
  · exact ⟨[], hopen⟩

theorem beginLoad_eq {n : Nat} {r : RowId} {s : State} {row : Row} {c : Cursor} (hrow : s.row r = some row)
    (hc : row.cursor = some c) :
    beginLoad n r s = if (s.port (portOf r)).state = .ready then beginLoadAt n r c s else s := by
  simp [beginLoad, hrow, hc]

/-! ### The take of a stripe (R63) -/

/-- The mark that a take sets. -/
def Stripe.take (page index : Nat) (st : Stripe) : Stripe :=
  if st.is page index && st.counted then { st with taken := true } else st

theorem map_take_of_none {ring : List Stripe} {page index : Nat}
    (h : (ring.any fun st => st.is page index && st.counted) = false) : ring.map (Stripe.take page index) = ring := by
  refine (List.map_congr_left fun st hst => ?_).trans (List.map_id ring)
  exact if_neg (List.any_eq_false.mp h st hst)

/-- A take marks the stripes that answer and are still counted, and the ahead count falls where there is one. -/
theorem takeStripe_bar (b : BarId) (page index : Nat) (s : State) :
    (takeStripe b page index s).bar b = { s.bar b with
      ring := (s.bar b).ring.map (Stripe.take page index)
      ahead := if (s.bar b).ring.any fun st => st.is page index && st.counted then (s.bar b).ahead - 1
        else (s.bar b).ahead } := by
  unfold takeStripe
  split
  · rename_i h
    rw [State.bar_congr (evaluateStarve_bars _), State.bar_updateBar_same]
    rfl
  · rename_i h
    rw [map_take_of_none (Bool.not_eq_true _ ▸ h)]

/-- Where one record alone answers, a take marks it if it is not retired, and lowers the ahead count if it was not
taken either. -/
theorem takeStripe_bar_of_found {b : BarId} {page index : Nat} {s : State} {st : Stripe}
    (hfound : (s.bar b).ring.find? (fun st => st.is page index) = some st) (hcomplete : st.state = .complete)
    (halone : ∀ x ∈ (s.bar b).ring, x.page = st.page → x.index = st.index → x.released = false → x = st) :
    ((takeStripe b page index s).bar b).ring =
        (s.bar b).ring.map (fun x => if x = st ∧ st.retired = false then { x with taken := true } else x) ∧
      ((takeStripe b page index s).bar b).ahead =
        if st.taken = false ∧ st.retired = false then (s.bar b).ahead - 1 else (s.bar b).ahead := by
  have hmem := List.mem_of_find?_eq_some hfound
  have hst : st.is page index = true := List.find?_some (p := fun st : Stripe => st.is page index) hfound
  have his : ∀ x ∈ (s.bar b).ring, x.is page index = true ↔ x = st := by
    intro x hx
    refine ⟨fun h => ?_, fun h => h ▸ hst⟩
    simp only [Stripe.is, Bool.and_eq_true, decide_eq_true_eq, Bool.not_eq_true'] at h hst
    exact halone x hx (h.1.1.trans hst.1.1.symm) (h.1.2.trans hst.1.2.symm) h.2
  have hcounted : st.counted = true ↔ st.taken = false ∧ st.retired = false := by simp [Stripe.counted, hcomplete]
  have hany : ((s.bar b).ring.any fun st => st.is page index && st.counted) = true ↔
      st.taken = false ∧ st.retired = false := by
    rw [List.any_eq_true, ← hcounted]
    constructor
    · rintro ⟨x, hx, h⟩
      rw [Bool.and_eq_true, his x hx] at h
      exact h.1 ▸ h.2
    · exact fun h => ⟨st, hmem, by simp [hst, h]⟩
  rw [takeStripe_bar]
  refine ⟨List.map_congr_left fun x hx => ?_, by simp only [hany]⟩
  unfold Stripe.take
  by_cases hx' : x = st
  · subst hx'
    by_cases hr : x.retired = false
    · by_cases ht : x.taken = false
      · simp [hst, hcounted, ht, hr]
      · rw [Bool.not_eq_false] at ht
        simp only [Stripe.counted, ht, Bool.not_true, Bool.and_false, Bool.false_and, hr, and_self, if_true]
        obtain ⟨_, _, _, _, _, _, _, _, _, _⟩ := x
        simp_all
    · simp [Stripe.counted, hr]
  · simp [hx', (his x hx).not.mpr hx']

theorem post_reports (t : Topic) (d : Detail) (s : State) :
    (post t d s).reports = { queue := postTo s.motion.pos t d s.reports.queue, attention := true } := by
  simp [post, postTo_ne_nil]

theorem noteUnderrun_reports (b : BarId) (page line : Nat) (s : State) :
    (noteUnderrun b page line s).reports =
      { queue := postTo s.motion.pos (.underrun page b) (.line line) s.reports.queue, attention := true } :=
  post_reports _ _ _

/-- A found record that is COMPLETE is the load's source; the load takes it. -/
theorem beginLoadAt_data {n : Nat} {r : RowId} {c : Cursor} {s : State} {st : Stripe}
    (hfound : (s.bar (rowBar r)).ring.find? (fun st => st.is c.page (c.line / 64)) = some st)
    (hcomplete : st.state = .complete) :
    beginLoadAt n r c s = fetchWords n r (takeStripe (rowBar r) c.page (c.line / 64) (openContext r c s)) := by
  simp [beginLoadAt, loadSource, hfound, hcomplete]

/-- Without a COMPLETE record the load is blank. -/
theorem beginLoadAt_blank {n : Nat} {r : RowId} {c : Cursor} {s : State}
    (hfound : ∀ st, (s.bar (rowBar r)).ring.find? (fun st => st.is c.page (c.line / 64)) = some st →
      st.state = .filling) :
    beginLoadAt n r c s = noteUnderrun (rowBar r) c.page c.line (openContext r c s) := by
  unfold beginLoadAt loadSource
  cases h : (s.bar (rowBar r)).ring.find? fun st => st.is c.page (c.line / 64) with
  | none => rfl
  | some st => simp [hfound st h]

/-- Settles O56. -/
theorem loadBegins : Obligations.LoadBegins := by
  intro n r row c s hrow hc b start governs found t
  have hbegin : t = if (s.port (portOf r)).state = .ready then beginLoadAt n r c s else s := beginLoad_eq hrow hc
  refine ⟨fun hport => hbegin.trans (if_neg hport), fun hport => ?_⟩
  have ht : t = beginLoadAt n r c s := hbegin.trans (if_pos hport)
  refine ⟨?_, fun q hq => beginLoad_row_of_ne n (Ne.symm hq) s, fun st hfound hcomplete halone => ?_, fun hblank => ?_⟩
  · obtain ⟨image, himage⟩ := beginLoadAt_row (n := n) (c := c) hrow
    refine ⟨{ makeContext s r c with image := image }, ht ▸ himage, rfl, rfl, rfl, fun h hh => ?_, governs_iff.mpr rfl,
      fun sv => mem_seamViews, rfl⟩
    simp [makeContext, headNozzles, hh]
  · rw [ht, beginLoadAt_data hfound hcomplete, State.bar_congr (fetchWords_bars ..)]
    exact takeStripe_bar_of_found (s := openContext r c s) hfound hcomplete halone
  · rw [ht, beginLoadAt_blank hblank]
    exact ⟨rfl, rfl, noteUnderrun_reports _ _ _ _⟩

end Sys2Proof.Machine
end

section
/-! PROOF. Judging a ring for retirement (R64, R65), as a function of the ring and of which stripes are due. -/

namespace Sys2Proof.Machine

/-- A record marked where it is due. -/
def Stripe.judged (due : Stripe → Bool) (st : Stripe) : Stripe := { st with retired := st.retired || due st }

/-- A FILLING record that is retired, which is withdrawn from the ring (R65). -/
def Stripe.withdrawn (st : Stripe) : Bool := decide (st.state = .filling) && st.retired

/-- A ring judged: the due records marked, a withdrawn one gone, retired ones gone from the head. -/
def judgedRing (due : Stripe → Bool) (ring : List Stripe) : List Stripe :=
  ((ring.map (Stripe.judged due)).filter fun st => !st.withdrawn).dropWhile (·.retired)

/-- The next slot once a ring has been judged: it steps back to the slot of a withdrawn record. -/
def judgedSlot (due : Stripe → Bool) (ring : List Stripe) (next : Option Nat) : Option Nat :=
  match ring.find? fun st => (st.judged due).withdrawn with
  | some st => some st.slot
  | none => next

/-- Only the newest record of the ring can be withdrawn. -/
def OnlyTailWithdrawn (due : Stripe → Bool) (ring : List Stripe) : Prop :=
  ∀ st ∈ ring.dropLast, (st.judged due).withdrawn = false

/-- Which records are due does not depend on their retired and taken marks. -/
structure MarkFree (due : Stripe → Bool) : Prop where
  retired : ∀ (st : Stripe) (x : Bool), due { st with retired := x } = due st
  taken : ∀ st : Stripe, due st.untaken = due st

theorem markFree_retirementDue (s : State) (b : BarId) : MarkFree (retirementDue s b) :=
  ⟨fun _ _ => rfl, fun _ => rfl⟩

theorem onlyTailWithdrawn_of_complete {ring : List Stripe} (h : ∀ st ∈ ring.dropLast, st.state = .complete)
    (due : Stripe → Bool) : OnlyTailWithdrawn due ring := fun st hst => by
  simp [Stripe.withdrawn, Stripe.judged, h st hst]

/-! ### What the model's operations do to a ring -/

theorem markRetired_eq (s : State) (b : BarId) (ring : List Stripe) :
    markRetired s b ring = ring.map (Stripe.judged (retirementDue s b)) := by
  refine List.map_congr_left fun st _ => ?_
  obtain ⟨_, _, _, _, _, _, _, _, retired, _⟩ := st
  cases retired with
  | true => rfl
  | false =>
    simp only [Stripe.judged, Bool.not_false, Bool.true_and, Bool.false_or]
    split <;> simp_all

theorem withdrawTail_eq {ring : List Stripe} (h : ∀ st ∈ ring.dropLast, st.withdrawn = false) :
    withdrawTail ring = (ring.filter fun st => !st.withdrawn, ring.find? Stripe.withdrawn) := by
  rcases List.eq_nil_or_concat' ring with rfl | ⟨front, x, rfl⟩
  · rfl
  · rw [List.dropLast_concat] at h
    have hfilter : (front.filter fun st => !st.withdrawn) = front := List.filter_eq_self.mpr fun st hst => by simp [h st hst]
    have hfind : front.find? Stripe.withdrawn = none := List.find?_eq_none.mpr fun st hst => by simp [h st hst]
    rw [withdrawTail, List.getLast?_concat, List.filter_append, hfilter, List.find?_append, hfind]
    cases hx : x.withdrawn with
    | true =>
      have hx' := hx
      simp only [Stripe.withdrawn] at hx'
      simp [hx, hx']
    | false =>
      have hx' := hx
      simp only [Stripe.withdrawn] at hx'
      simp [hx, hx']

theorem onlyTailWithdrawn_map {due : Stripe → Bool} {ring : List Stripe} (h : OnlyTailWithdrawn due ring) :
    ∀ st ∈ (ring.map (Stripe.judged due)).dropLast, st.withdrawn = false := by
  rw [← List.map_dropLast]
  exact List.forall_mem_map.mpr h

/-- Marking, withdrawing and leaving give the judged ring. -/
theorem judgedRing_eq {due : Stripe → Bool} {ring : List Stripe} (h : OnlyTailWithdrawn due ring) :
    leaveFromHead (withdrawTail (ring.map (Stripe.judged due))).1 = judgedRing due ring := by
  rw [withdrawTail_eq (onlyTailWithdrawn_map h)]
  rfl

theorem judgedSlot_eq {due : Stripe → Bool} {ring : List Stripe} (h : OnlyTailWithdrawn due ring)
    (next : Option Nat) :
    (match (withdrawTail (ring.map (Stripe.judged due))).2 with | some st => some st.slot | none => next) =
      judgedSlot due ring next := by
  rw [withdrawTail_eq (onlyTailWithdrawn_map h), List.find?_map, judgedSlot]
  have hfun : Stripe.withdrawn ∘ Stripe.judged due = fun st => (st.judged due).withdrawn := rfl
  rw [hfun]
  cases ring.find? fun st => (st.judged due).withdrawn <;> rfl

/-! ### Taken marks, and judging twice -/

theorem judged_untaken {due : Stripe → Bool} (h : MarkFree due) (st : Stripe) :
    st.untaken.judged due = (st.judged due).untaken := by
  simp only [Stripe.judged, h.taken]
  rfl

theorem judgedRing_untaken {due : Stripe → Bool} (h : MarkFree due) (ring : List Stripe) :
    judgedRing due (ring.map Stripe.untaken) = (judgedRing due ring).map Stripe.untaken := by
  have hmap : (ring.map Stripe.untaken).map (Stripe.judged due) =
      (ring.map (Stripe.judged due)).map Stripe.untaken := by
    simp only [List.map_map]
    exact List.map_congr_left fun st _ => judged_untaken h st
  rw [judgedRing, hmap, List.filter_map, List.dropWhile_map]
  rfl

theorem judgedSlot_untaken {due : Stripe → Bool} (h : MarkFree due) (ring : List Stripe) (next : Option Nat) :
    judgedSlot due (ring.map Stripe.untaken) next = judgedSlot due ring next := by
  have hfun : (fun st : Stripe => (st.judged due).withdrawn) ∘ Stripe.untaken =
      fun st : Stripe => (st.judged due).withdrawn := by
    funext st
    simp only [Function.comp, judged_untaken h]
    rfl
  rw [judgedSlot, List.find?_map, hfun, judgedSlot]
  cases ring.find? fun st => (st.judged due).withdrawn <;> rfl

theorem onlyTailWithdrawn_untaken {due : Stripe → Bool} (h : MarkFree due) {ring : List Stripe} :
    OnlyTailWithdrawn due (ring.map Stripe.untaken) ↔ OnlyTailWithdrawn due ring := by
  unfold OnlyTailWithdrawn
  rw [← List.map_dropLast, List.forall_mem_map]
  exact forall₂_congr fun st _ => by rw [judged_untaken h]; rfl

/-- The records of a judged ring carry their marks already, and none of them is to be withdrawn. -/
theorem mem_judgedRing {due : Stripe → Bool} (h : MarkFree due) {ring : List Stripe} {st : Stripe}
    (hst : st ∈ judgedRing due ring) : st.judged due = st ∧ st.withdrawn = false := by
  have hmem := (List.dropWhile_sublist _).subset hst
  obtain ⟨hmap, hkeep⟩ := List.mem_filter.mp hmem
  obtain ⟨u, -, rfl⟩ := List.mem_map.mp hmap
  refine ⟨?_, by simpa using hkeep⟩
  simp only [Stripe.judged, h.retired, Bool.or_assoc, Bool.or_self]

theorem onlyTailWithdrawn_judgedRing {due : Stripe → Bool} (h : MarkFree due) (ring : List Stripe) :
    OnlyTailWithdrawn due (judgedRing due ring) := fun st hst => by
  obtain ⟨hmark, hkeep⟩ := mem_judgedRing h (List.dropLast_subset _ hst)
  rw [hmark, hkeep]

theorem judgedRing_idem {due : Stripe → Bool} (h : MarkFree due) (ring : List Stripe) :
    judgedRing due (judgedRing due ring) = judgedRing due ring := by
  have hmap : (judgedRing due ring).map (Stripe.judged due) = judgedRing due ring :=
    (List.map_congr_left fun st hst => (mem_judgedRing h hst).1).trans (List.map_id _)
  have hfilter : ((judgedRing due ring).filter fun st => !st.withdrawn) = judgedRing due ring :=
    List.filter_eq_self.mpr fun st hst => by simp [(mem_judgedRing h hst).2]
  rw [judgedRing, hmap, hfilter]
  exact List.dropWhile_idempotent _ _

theorem judgedSlot_judgedRing {due : Stripe → Bool} (h : MarkFree due) (ring : List Stripe) (next : Option Nat) :
    judgedSlot due (judgedRing due ring) next = next := by
  have hnone : ((judgedRing due ring).find? fun st => (st.judged due).withdrawn) = none :=
    List.find?_eq_none.mpr fun st hst => by
      obtain ⟨hmark, hkeep⟩ := mem_judgedRing h hst
      simp [hmark, hkeep]
  rw [judgedSlot, hnone]

end Sys2Proof.Machine
end

section
/-! PROOF. What a load leaves as it stands: every page record but for two of its flags, every row but for its latch,
every ring but for its taken marks; what it posts; and the starve condition kept evaluated. -/

namespace Sys2Proof.Machine

/-! ### Page records but for the flags that loads set -/

/-- A page record without the flags that loads set (R71, R102). -/
def Page.core (p : Page) : Page := { p with flags := { p.flags with underrun := false, memory := false } }

/-- A row without its latch. -/
def Row.core (row : Row) : Row := { row with latch := .empty }

/-- A bar's part of the Stripe Store without what a take changes: the taken marks and the ahead count (R63). -/
def BarStore.core (bs : BarStore) : BarStore := { bs with ring := bs.ring.map Stripe.untaken, ahead := 0 }

theorem Page.field_of_core {β : Type} (f : Page → β) (hf : ∀ p, f p.core = f p) {p q : Page} (h : q.core = p.core) :
    f q = f p := by rw [← hf q, h, hf p]

section
variable {ps qs : List Page} (h : qs.map Page.core = ps.map Page.core)
include h

/-- A search that does not look at those flags finds the same record. -/
theorem find_core {f : Page → Bool} (hf : ∀ p, f p.core = f p) :
    (qs.find? f).map Page.core = (ps.find? f).map Page.core := by
  have hcore : ∀ l : List Page, (l.find? f).map Page.core = (l.map Page.core).find? f := fun l => by
    have hfun : f ∘ Page.core = f := funext hf
    rw [List.find?_map, hfun]
  rw [hcore, hcore, h]

theorem any_core {f : Page → Bool} (hf : ∀ p, f p.core = f p) : qs.any f = ps.any f := by
  have hcore : ∀ l : List Page, l.any f = (l.map Page.core).any f := fun l => by
    have hfun : f ∘ Page.core = f := funext hf
    rw [List.any_map, hfun]
  rw [hcore qs, h, ← hcore ps]

theorem findPage_core (id : Nat) : (findPage qs id).map Page.core = (findPage ps id).map Page.core :=
  find_core h fun _ => rfl

theorem pageStart_core (id : Nat) : pageStart qs id = pageStart ps id := by
  have hstart : ∀ l : List Page, pageStart l id = (((findPage l id).map Page.core).bind (·.start)).getD 0 := fun l => by
    unfold pageStart
    cases findPage l id <;> rfl
  rw [hstart, hstart, findPage_core h]

theorem rowPassed_core {row row' : Option Row} (hc : row'.bind (·.cursor) = row.bind (·.cursor)) {p p' : Page}
    (hp : p'.core = p.core) (e : Nat) : rowPassed qs row' p' e = rowPassed ps row p e := by
  have hid : p'.id = p.id := Page.field_of_core Page.id (fun _ => rfl) hp
  have hstart : p'.start = p.start := Page.field_of_core Page.start (fun _ => rfl) hp
  unfold rowPassed
  rw [hc]
  simp only [hid, hstart, pageStart_core h]

/-- Where a bar's cursor belongs depends on the plan of the pages and on the ring without its taken marks (R56). -/
theorem cursorOf_core {bs bs' : BarStore} (hb : bs'.ring.map Stripe.untaken = bs.ring.map Stripe.untaken)
    (b : BarId) : cursorOf qs bs' b = cursorOf ps bs b := by
  have hfind := find_core h (f := lacksStripes b) fun _ => rfl
  have hreceived : ∀ page index,
      (bs'.ring.find? fun st => decide (st.state = .filling) && st.is page index).map (·.received) =
        (bs.ring.find? fun st => decide (st.state = .filling) && st.is page index).map (·.received) := by
    intro page index
    have hcore : ∀ ring : List Stripe,
        (ring.find? fun st => decide (st.state = .filling) && st.is page index).map (·.received) =
        ((ring.map Stripe.untaken).find? fun st => decide (st.state = .filling) && st.is page index).map
          (·.received) := fun ring => by rw [List.find?_map, Option.map_map]; rfl
    rw [hcore, hcore bs.ring, hb]
  unfold cursorOf
  cases hq : qs.find? (lacksStripes b) with
  | none =>
    rw [hq, Option.map_none] at hfind
    rw [Option.map_eq_none_iff.mp hfind.symm]
  | some q =>
    rw [hq, Option.map_some] at hfind
    obtain ⟨p, hp, hcore⟩ := Option.map_eq_some_iff.mp hfind.symm
    have hid : p.id = q.id := Page.field_of_core Page.id (fun _ => rfl) hcore
    have hcomplete : p.complete = q.complete := Page.field_of_core Page.complete (fun _ => rfl) hcore
    have hrow := hreceived q.id (entry q.complete b)
    rw [hp]
    simp only [hid, hcomplete]
    revert hrow
    generalize (bs'.ring.find? fun st => decide (st.state = .filling) && st.is q.id (entry q.complete b)) = x
    generalize (bs.ring.find? fun st => decide (st.state = .filling) && st.is q.id (entry q.complete b)) = y
    cases x <;> cases y <;> simp

theorem atRisk_core {bs bs' : BarStore} (hthreshold : bs'.threshold = bs.threshold) (hahead : bs'.ahead = bs.ahead)
    (b : BarId) : atRisk qs bs' b = atRisk ps bs b := by
  unfold atRisk
  rw [hthreshold, hahead, any_core h fun _ => rfl]

end

/-- Which stripes are due depends on the plan of the pages and on the cursors. -/
theorem retirementDue_core {s t : State} (hp : t.pages.map Page.core = s.pages.map Page.core)
    (hc : ∀ r, (t.row r).bind (·.cursor) = (s.row r).bind (·.cursor)) (b : BarId) :
    retirementDue t b = retirementDue s b := by
  funext st
  have hfind := findPage_core hp st.page
  unfold retirementDue
  cases hq : findPage t.pages st.page with
  | none =>
    rw [hq, Option.map_none] at hfind
    rw [Option.map_eq_none_iff.mp hfind.symm]
  | some q =>
    rw [hq, Option.map_some] at hfind
    obtain ⟨p, hp', hcore⟩ := Option.map_eq_some_iff.mp hfind.symm
    have hstate : p.state = q.state := Page.field_of_core Page.state (fun _ => rfl) hcore
    have hpassed : ∀ r e, rowPassed t.pages (t.row r) q e = rowPassed s.pages (s.row r) p e :=
      fun r e => rowPassed_core hp (hc r) hcore.symm e
    simp only [hp', hstate, hpassed]

/-! ### The starve condition, kept evaluated -/

/-- The starve condition stands as it was last evaluated (R68, R69). -/
def StarveSettled (s : State) : Prop := s.store.starve = starveHolds s

theorem atRisk_iff {s : State} {b : BarId} : atRisk s.pages (s.bar b) b = true ↔ BarAtRisk s b := by
  simp [atRisk, BarAtRisk, and_assoc]

theorem starveHolds_iff {s : State} : starveHolds s = true ↔ s.control.op = .online ∧ ∃ x, BarAtRisk s x := by
  simp [starveHolds, lowestAtRisk, List.find?_isSome, mem_allBars, atRisk_iff]

theorem starveHolds_core {s t : State} (hop : t.control = s.control)
    (hp : t.pages.map Page.core = s.pages.map Page.core)
    (hb : ∀ b, (t.bar b).threshold = (s.bar b).threshold ∧ (t.bar b).ahead = (s.bar b).ahead) :
    starveHolds t = starveHolds s := by
  have hrisk : ∀ b, atRisk t.pages (t.bar b) b = atRisk s.pages (s.bar b) b :=
    fun b => atRisk_core hp (hb b).1 (hb b).2 b
  simp only [starveHolds, lowestAtRisk, hop, hrisk]

theorem evaluateStarve_pages (s : State) : (evaluateStarve s).pages = s.pages := by
  unfold evaluateStarve
  split <;> split <;> rfl

theorem evaluateStarve_geometry (s : State) : (evaluateStarve s).geometry = s.geometry := by
  unfold evaluateStarve
  split <;> split <;> rfl

theorem starveSettled_evaluateStarve (s : State) : StarveSettled (evaluateStarve s) := by
  have hholds : starveHolds (evaluateStarve s) = starveHolds s :=
    starveHolds_core (rowEvent_evaluateStarve s).control (by rw [evaluateStarve_pages])
      fun b => by rw [State.bar_congr (evaluateStarve_bars s)]; exact ⟨rfl, rfl⟩
  rw [StarveSettled, hholds]
  unfold evaluateStarve
  split
  · split
    · simp [*]
    · simp [*, enterStarve]
  · split
    · simp [*, leaveStarve]
    · simp [*]

end Sys2Proof.Machine
end

section
/-! PROOF. The reports that an operation posts, and what the beginning of a load leaves as it stands. -/

namespace Sys2Proof.Machine

/-! ### Reports posted -/

/-- On the way from s to t these events were posted, in this order, the Motion Unit standing still. -/
structure Posts (s t : State) (es : List (Topic × Detail)) : Prop where
  motion : t.motion = s.motion
  queue : t.reports.queue = es.foldl (fun q e => postTo s.motion.pos e.1 e.2 q) s.reports.queue

theorem Posts.trans {s t u : State} {es fs : List (Topic × Detail)} (h : Posts s t es) (k : Posts t u fs) :
    Posts s u (es ++ fs) where
  motion := k.motion.trans h.motion
  queue := by rw [k.queue, List.foldl_append, h.queue, h.motion]

theorem posts_nil {s t : State} (hm : t.motion = s.motion) (hr : t.reports = s.reports) : Posts s t [] where
  motion := hm
  queue := by rw [hr]; rfl

theorem posts_post (t : Topic) (d : Detail) (s : State) : Posts s (post t d s) [(t, d)] := ⟨rfl, rfl⟩

/-- Only events of these kinds were posted on the way from s to t. -/
def PostsOnly (P : Topic → Prop) (s t : State) : Prop := ∃ es, Posts s t es ∧ ∀ e ∈ es, P e.1

section
variable {P : Topic → Prop}

theorem postsOnly_none {s t : State} (hm : t.motion = s.motion) (hr : t.reports = s.reports) : PostsOnly P s t :=
  ⟨[], posts_nil hm hr, by simp⟩

theorem PostsOnly.trans {s t u : State} (h : PostsOnly P s t) (k : PostsOnly P t u) : PostsOnly P s u := by
  obtain ⟨es, hes, hP⟩ := h
  obtain ⟨fs, hfs, kP⟩ := k
  exact ⟨es ++ fs, hes.trans hfs, List.forall_mem_append.mpr ⟨hP, kP⟩⟩

theorem postsOnly_post {t : Topic} (h : P t) (d : Detail) {s u : State} (hm : u.motion = s.motion)
    (hr : u.reports = s.reports) : PostsOnly P s (post t d u) :=
  ⟨[(t, d)], (posts_nil hm hr).trans (posts_post t d u), by simpa using h⟩

end

theorem postsOnly_evaluateStarve {P : Topic → Prop} (hP : P .starve) (s : State) :
    PostsOnly P s (evaluateStarve s) := by
  unfold evaluateStarve
  split <;> split
  · exact postsOnly_none rfl rfl
  · exact postsOnly_post hP _ rfl rfl
  · exact postsOnly_post hP _ rfl rfl
  · exact postsOnly_none rfl rfl

/-! ### The beginning of a load -/

/-- The kinds of report that a load of a bar's row posts. -/
def LoadTopic (b : BarId) (t : Topic) : Prop := t = .starve ∨ t = .memoryError ∨ ∃ id, t = .underrun id b

/-- What the beginning of a load of row r, for a line of a page, leaves as it stands. -/
structure LoadStep (r : RowId) (page : Nat) (s t : State) : Prop where
  posts : PostsOnly (LoadTopic (rowBar r)) s t
  control : t.control = s.control
  changeovers : t.geometry.changeovers = s.geometry.changeovers
  pages : t.pages.map Page.core = s.pages.map Page.core
  others : ∀ id, id ≠ page → findPage t.pages id = findPage s.pages id
  rows : ∀ q, (t.row q).map Row.core = (s.row q).map Row.core
  bars : ∀ x, (t.bar x).core = (s.bar x).core
  other_bars : ∀ x, x ≠ rowBar r → t.bar x = s.bar x
  starve : StarveSettled s → StarveSettled t

namespace LoadStep
variable {r : RowId} {page : Nat}

theorem refl (s : State) : LoadStep r page s s where
  posts := postsOnly_none rfl rfl
  control := rfl
  changeovers := rfl
  pages := rfl
  others := fun _ _ => rfl
  rows := fun _ => rfl
  bars := fun _ => rfl
  other_bars := fun _ _ => rfl
  starve := id

theorem trans {s t u : State} (h : LoadStep r page s t) (k : LoadStep r page t u) : LoadStep r page s u where
  posts := h.posts.trans k.posts
  control := k.control.trans h.control
  changeovers := k.changeovers.trans h.changeovers
  pages := k.pages.trans h.pages
  others := fun id hid => (k.others id hid).trans (h.others id hid)
  rows := fun q => (k.rows q).trans (h.rows q)
  bars := fun x => (k.bars x).trans (h.bars x)
  other_bars := fun x hx => (k.other_bars x hx).trans (h.other_bars x hx)
  starve := fun hs => k.starve (h.starve hs)

/-- The cursors stay. -/
theorem cursors {s t : State} (h : LoadStep r page s t) (q : RowId) :
    (t.row q).bind (·.cursor) = (s.row q).bind (·.cursor) := by
  have hcore : ∀ x : Option Row, x.bind (·.cursor) = (x.map Row.core).bind (·.cursor) := fun x => by
    cases x <;> rfl
  rw [hcore, h.rows q, ← hcore]

/-- A ring stays but for its taken marks, and so do the next slot and the stripe cursor. -/
theorem ring {s t : State} (h : LoadStep r page s t) (x : BarId) :
    (t.bar x).ring.map Stripe.untaken = (s.bar x).ring.map Stripe.untaken :=
  congrArg BarStore.ring (h.bars x)

theorem nextSlot {s t : State} (h : LoadStep r page s t) (x : BarId) : (t.bar x).nextSlot = (s.bar x).nextSlot :=
  show (t.bar x).core.nextSlot = (s.bar x).core.nextSlot by rw [h.bars]

theorem stripeCursor {s t : State} (h : LoadStep r page s t) (x : BarId) : (t.bar x).cursor = (s.bar x).cursor :=
  show (t.bar x).core.cursor = (s.bar x).core.cursor by rw [h.bars]

end LoadStep

theorem loadStep_updateRow {r : RowId} {page : Nat} (s : State) (f : Row → Row) (hf : ∀ row, (f row).core = row.core) :
    LoadStep r page s (s.updateRow r f) :=
  { LoadStep.refl s with
    posts := postsOnly_none rfl rfl
    rows := fun q => by
      rw [State.row_updateRow]
      split
      · rename_i h
        subst h
        cases s.row r <;> simp [hf]
      · rfl
    starve := fun h => h }

theorem changePage_core {id : Nat} {f : Page → Page} (hf : ∀ p, (f p).core = p.core) (ps : List Page) :
    (changePage id f ps).map Page.core = ps.map Page.core := by
  simp only [changePage, List.map_map]
  refine List.map_congr_left fun p _ => ?_
  simp only [Function.comp]
  split
  · exact hf p
  · rfl

/-- A change of a record that keeps its id is not seen at another id. -/
theorem findPage_changePage_of_ne {id id' : Nat} {f : Page → Page} (hf : ∀ p, (f p).id = p.id) (hne : id' ≠ id)
    (ps : List Page) : findPage (changePage id f ps) id' = findPage ps id' := by
  induction ps with
  | nil => rfl
  | cons p ps ih =>
    simp only [findPage, changePage, List.map_cons, List.find?_cons] at ih ⊢
    rw [ih]
    by_cases hp : p.id = id
    · have hne' : ¬ p.id = id' := fun h => hne (h.symm.trans hp)
      simp [hp, hf, Ne.symm hne]
    · simp [hp]

theorem loadStep_updatePage {r : RowId} {page : Nat} (s : State) {f : Page → Page} (hf : ∀ p, (f p).core = p.core) :
    LoadStep r page s (s.updatePage page f) :=
  have hpages : (s.updatePage page f).pages.map Page.core = s.pages.map Page.core := changePage_core hf s.pages
  { LoadStep.refl (r := r) (page := page) s with
    posts := postsOnly_none rfl rfl
    pages := hpages
    others := fun _ hid => findPage_changePage_of_ne (fun p => Page.field_of_core Page.id (fun _ => rfl) (hf p)) hid _
    starve := fun h => h.trans (starveHolds_core (s := s) (t := s.updatePage page f) rfl hpages fun _ => ⟨rfl, rfl⟩).symm }

theorem loadStep_post {r : RowId} {page : Nat} {t : Topic} (ht : LoadTopic (rowBar r) t) (d : Detail) (s : State) :
    LoadStep r page s (post t d s) :=
  { LoadStep.refl s with
    posts := postsOnly_post ht d rfl rfl
    starve := fun h => h }

theorem loadStep_evaluateStarve {r : RowId} {page : Nat} (s : State) : LoadStep r page s (evaluateStarve s) where
  posts := postsOnly_evaluateStarve (.inl rfl) s
  control := (rowEvent_evaluateStarve s).control
  changeovers := by rw [evaluateStarve_geometry]
  pages := by rw [evaluateStarve_pages]
  others := fun _ _ => by rw [evaluateStarve_pages]
  rows := fun q => by rw [State.row_congr (evaluateStarve_rows s)]
  bars := fun x => by rw [State.bar_congr (evaluateStarve_bars s)]
  other_bars := fun x _ => State.bar_congr (evaluateStarve_bars s) x
  starve := fun _ => starveSettled_evaluateStarve s

/-- A take lowers the ahead count only where it evaluates the starve condition (R63, R68). -/
theorem loadStep_takeStripe {r : RowId} {page : Nat} (p index : Nat) (s : State) :
    LoadStep r page s (takeStripe (rowBar r) p index s) := by
  have hcore : ∀ ring : List Stripe, (ring.map (Stripe.take p index)).map Stripe.untaken = ring.map Stripe.untaken := by
    intro ring
    rw [List.map_map]
    refine List.map_congr_left fun st _ => ?_
    simp only [Function.comp, Stripe.take]
    split <;> rfl
  have hbars : ∀ x, ((takeStripe (rowBar r) p index s).bar x).core = (s.bar x).core := by
    intro x
    by_cases hx : x = rowBar r
    · subst hx
      rw [takeStripe_bar]
      simp only [BarStore.core, hcore]
    · unfold takeStripe
      split
      · rw [State.bar_congr (evaluateStarve_bars _), State.bar_updateBar, if_neg (Ne.symm hx)]
      · rfl
  unfold takeStripe at hbars ⊢
  split
  · rename_i h
    simp only [h, if_true] at hbars
    have hstarve := loadStep_evaluateStarve (r := r) (page := page) (s.updateBar (rowBar r) fun bs =>
      { bs with
        ring := bs.ring.map fun st => if st.is p index && st.counted then { st with taken := true } else st
        ahead := bs.ahead - 1 })
    exact
      { posts := PostsOnly.trans (t := s.updateBar (rowBar r) _) (postsOnly_none rfl rfl) hstarve.posts
        control := hstarve.control
        changeovers := hstarve.changeovers
        pages := hstarve.pages
        others := hstarve.others
        rows := hstarve.rows
        bars := hbars
        other_bars := fun x hx => (hstarve.other_bars x hx).trans (by rw [State.bar_updateBar, if_neg (Ne.symm hx)])
        starve := fun _ => starveSettled_evaluateStarve _ }
  · exact LoadStep.refl s

theorem loadStep_readWord {r : RowId} (k : ReadKey) (place word : Nat) (s : State) :
    LoadStep r k.page s (readWord k place word s).2 := by
  unfold readWord
  split
  · exact LoadStep.refl s
  · exact { LoadStep.refl s with posts := postsOnly_none rfl rfl, starve := fun h => h }
  · unfold noteUncorrectable
    refine LoadStep.trans ?_ (loadStep_post (.inr (.inl rfl)) _ _)
    refine LoadStep.trans ?_ (loadStep_updatePage _ fun _ => rfl)
    exact { LoadStep.refl s with posts := postsOnly_none rfl rfl, starve := fun h => h }

theorem loadStep_readWords {r : RowId} (k : ReadKey) (place : Nat) (ws : List Nat) (s : State) :
    LoadStep r k.page s (readWords k place ws s).2 := by
  induction ws generalizing s with
  | nil => exact LoadStep.refl s
  | cons w ws ih => exact (loadStep_readWord k place w s).trans (ih _)

theorem loadStep_fetchWords {n : Nat} {r : RowId} {s : State} {row : Row} {line : Nat} {ctx : Context}
    (h : s.row r = some { row with latch := .loading line (.assembling ctx) }) :
    LoadStep r ctx.page s (fetchWords n r s) := by
  unfold fetchWords
  simp only [h, Option.map_some]
  split
  · exact LoadStep.refl s
  · rename_i slot _
    have hread := loadStep_readWords (r := r)
      { source := .row r, bar := rowBar r, slot := slot, page := ctx.page, stripe := ctx.stripe } ctx.place
      (ctx.unread.take n) s
    exact hread.trans (loadStep_updateRow _ _ fun _ => rfl)

/-- The beginning of a load at a cursor changes of the rows the latch, of the pages two flags of the cursor's page, of
the rings the taken marks with the ahead count. -/
theorem loadStep_beginLoad {n : Nat} {r : RowId} {s : State} {row : Row} {c : Cursor} (hrow : s.row r = some row)
    (hc : row.cursor = some c) : LoadStep r c.page s (beginLoad n r s) := by
  have hopen : (openContext r c s).row r =
      some { row with latch := .loading c.line (.assembling (makeContext s r c)) } := by
    simp [openContext, hrow]
  have hstep : LoadStep r c.page s (openContext r c s) := loadStep_updateRow s _ fun _ => rfl
  rw [beginLoad_eq hrow hc]
  split
  · unfold beginLoadAt
    split
    · exact (hstep.trans (loadStep_takeStripe _ _ _)).trans
        (loadStep_fetchWords ((takeStripe_row ..).trans hopen))
    · refine hstep.trans ((loadStep_updatePage _ ?_).trans (loadStep_post (.inr (.inr ⟨_, rfl⟩)) _ _))
      exact fun _ => rfl
  · exact LoadStep.refl s

end Sys2Proof.Machine
end

section
/-! PROOF. Judging bars for retirement, and the end of a page at the Stripe Store (R42, R64, R65). -/

namespace Sys2Proof.Machine

/-! ### One bar -/

/-- What judging the retirement of bar b does, and leaves as it stands. -/
structure JudgeStep (b : BarId) (s t : State) : Prop where
  posts : PostsOnly (· = .starve) s t
  control : t.control = s.control
  geometry : t.geometry = s.geometry
  pages : t.pages = s.pages
  rows : t.rows = s.rows
  other_bars : ∀ x, x ≠ b → t.bar x = s.bar x
  judged : OnlyTailWithdrawn (retirementDue s b) (s.bar b).ring →
    (t.bar b).ring = judgedRing (retirementDue s b) (s.bar b).ring ∧
    (t.bar b).nextSlot = judgedSlot (retirementDue s b) (s.bar b).ring (s.bar b).nextSlot
  cursor : (t.bar b).cursor = cursorOf t.pages (t.bar b) b
  starve : StarveSettled s → StarveSettled t

/-- Bar b's part of the Stripe Store once it has been judged, its cursor still to be set. -/
def judgedBar (s : State) (b : BarId) : BarStore :=
  { s.bar b with
    ring := leaveFromHead (withdrawTail ((s.bar b).ring.map (Stripe.judged (retirementDue s b)))).1
    nextSlot := match (withdrawTail ((s.bar b).ring.map (Stripe.judged (retirementDue s b)))).2 with
      | some st => some st.slot
      | none => (s.bar b).nextSlot
    ahead := (s.bar b).ahead - countedLost s b (s.bar b).ring }

/-- The state once bar b has been judged, before the starve condition is evaluated. -/
def judgedState (b : BarId) (s : State) : State := refreshCursor b (s.updateBar b fun _ => judgedBar s b)

theorem judgeRetirement_eq (b : BarId) (s : State) :
    judgeRetirement b s =
      if countedLost s b (s.bar b).ring = 0 then judgedState b s else evaluateStarve (judgedState b s) := by
  unfold judgeRetirement judgedState judgedBar
  rw [markRetired_eq]
  rfl

theorem judgedState_bar (b x : BarId) (s : State) :
    (judgedState b s).bar x =
      if b = x then { judgedBar s b with cursor := cursorOf s.pages (judgedBar s b) b } else s.bar x := by
  unfold judgedState refreshCursor
  rw [State.bar_updateBar, State.bar_updateBar_same, State.bar_updateBar]
  split <;> rfl

theorem judgeRetirement_bar (b x : BarId) (s : State) :
    (judgeRetirement b s).bar x =
      if b = x then { judgedBar s b with cursor := cursorOf s.pages (judgedBar s b) b } else s.bar x := by
  rw [judgeRetirement_eq, ← judgedState_bar]
  split
  · rfl
  · exact State.bar_congr (evaluateStarve_bars _) x

theorem judgeRetirement_pages (b : BarId) (s : State) : (judgeRetirement b s).pages = s.pages := by
  rw [judgeRetirement_eq]
  split
  · rfl
  · exact evaluateStarve_pages _

theorem judgeRetirement_geometry (b : BarId) (s : State) : (judgeRetirement b s).geometry = s.geometry := by
  rw [judgeRetirement_eq]
  split
  · rfl
  · exact evaluateStarve_geometry _

theorem judgeStep_judgeRetirement (b : BarId) (s : State) : JudgeStep b s (judgeRetirement b s) where
  posts := by
    have hnone : PostsOnly (· = .starve) s (judgedState b s) := postsOnly_none rfl rfl
    rw [judgeRetirement_eq]
    split
    · exact hnone
    · exact hnone.trans (postsOnly_evaluateStarve (P := (· = .starve)) rfl _)
  control := (rowEvent_judgeRetirement b s).control
  geometry := judgeRetirement_geometry b s
  pages := judgeRetirement_pages b s
  rows := judgeRetirement_rows b s
  other_bars := fun x hx => by rw [judgeRetirement_bar, if_neg (Ne.symm hx)]
  judged := fun h => by
    rw [judgeRetirement_bar, if_pos rfl]
    exact ⟨judgedRing_eq h, judgedSlot_eq h _⟩
  cursor := by
    rw [judgeRetirement_bar, if_pos rfl, judgeRetirement_pages]
    exact (cursorOf_core rfl rfl b).symm
  starve := fun h => by
    rw [judgeRetirement_eq]
    split
    · rename_i hlost
      refine h.trans (starveHolds_core (s := s) (t := judgedState b s) rfl rfl fun x => ?_).symm
      rw [judgedState_bar]
      split
      · subst_vars
        exact ⟨rfl, by simp only [judgedBar, hlost, Nat.sub_zero]⟩
      · exact ⟨rfl, rfl⟩
    · exact starveSettled_evaluateStarve _

theorem JudgeStep.due {b : BarId} {s t : State} (h : JudgeStep b s t) (x : BarId) :
    retirementDue t x = retirementDue s x :=
  retirementDue_core (by rw [h.pages]) (fun r => by rw [State.row_congr h.rows]) x

/-! ### Several bars -/

/-- What judging the retirement of several bars does, and leaves as it stands. -/
structure JudgeSteps (bs : List BarId) (s t : State) : Prop where
  posts : PostsOnly (· = .starve) s t
  control : t.control = s.control
  geometry : t.geometry = s.geometry
  pages : t.pages = s.pages
  rows : t.rows = s.rows
  other_bars : ∀ x, x ∉ bs → t.bar x = s.bar x
  judged : ∀ x ∈ bs, OnlyTailWithdrawn (retirementDue s x) (s.bar x).ring →
    (t.bar x).ring = judgedRing (retirementDue s x) (s.bar x).ring ∧
    (t.bar x).nextSlot = judgedSlot (retirementDue s x) (s.bar x).ring (s.bar x).nextSlot

theorem judgeSteps_judgeRetirements {bs : List BarId} (hbs : bs.Nodup) (s : State) :
    JudgeSteps bs s (judgeRetirements bs s) := by
  induction bs generalizing s with
  | nil =>
    exact
      { posts := postsOnly_none rfl rfl
        control := rfl, geometry := rfl, pages := rfl, rows := rfl
        other_bars := fun _ _ => rfl
        judged := by simp }
  | cons b bs ih =>
    obtain ⟨hb, hbs⟩ := List.nodup_cons.mp hbs
    have h := judgeStep_judgeRetirement b s
    have k := ih hbs (judgeRetirement b s)
    exact
      { posts := h.posts.trans k.posts
        control := k.control.trans h.control
        geometry := k.geometry.trans h.geometry
        pages := k.pages.trans h.pages
        rows := k.rows.trans h.rows
        other_bars := fun x hx => by
          rw [List.mem_cons, not_or] at hx
          exact (k.other_bars x hx.2).trans (h.other_bars x hx.1)
        judged := fun x hx htail => by
          rcases List.mem_cons.mp hx with rfl | hx
          · exact k.other_bars x hb ▸ h.judged htail
          · have hne : x ≠ b := fun he => hb (he ▸ hx)
            have hk := k.judged x hx
            rw [h.due, h.other_bars x hne] at hk
            exact hk htail }

/-! ### The end of a page -/

theorem refreshCursor_bar (b x : BarId) (s : State) :
    (refreshCursor b s).bar x =
      if b = x then { s.bar x with cursor := cursorOf s.pages (s.bar x) x } else s.bar x := by
  unfold refreshCursor
  rw [State.bar_updateBar]
  split
  · subst_vars
    rfl
  · rfl

theorem refreshCursors_bar (x : BarId) (s : State) :
    (refreshCursors s).bar x = { s.bar x with cursor := cursorOf s.pages (s.bar x) x } := by
  unfold refreshCursors
  simp only [refreshCursor_bar, refreshCursor_pages]
  have hx : ∀ y : BarId, y = 0 ∨ y = 1 ∨ y = 2 ∨ y = 3 := by decide
  obtain rfl | rfl | rfl | rfl := hx x
  all_goals simp

theorem refreshCursors_pages (s : State) : (refreshCursors s).pages = s.pages := rfl

theorem refreshCursors_geometry (s : State) : (refreshCursors s).geometry = s.geometry := rfl

theorem postsOnly_refreshCursors {P : Topic → Prop} (s : State) : PostsOnly P s (refreshCursors s) :=
  postsOnly_none rfl rfl

/-- What the end of a page at the Stripe Store does, and leaves as it stands. -/
structure PageEndStep (bars : Vector Bool 4) (s t : State) : Prop where
  posts : PostsOnly (· = .starve) s t
  control : t.control = s.control
  geometry : t.geometry = s.geometry
  pages : t.pages = s.pages
  rows : t.rows = s.rows
  kept : ∀ x, entry bars x = false → (t.bar x).ring = (s.bar x).ring ∧ (t.bar x).nextSlot = (s.bar x).nextSlot
  judged : ∀ x, entry bars x = true → OnlyTailWithdrawn (retirementDue s x) (s.bar x).ring →
    (t.bar x).ring = judgedRing (retirementDue s x) (s.bar x).ring ∧
    (t.bar x).nextSlot = judgedSlot (retirementDue s x) (s.bar x).ring (s.bar x).nextSlot
  cursor : ∀ x, (t.bar x).cursor = cursorOf t.pages (t.bar x) x
  starve : StarveSettled t

theorem allBars_nodup : allBars.Nodup := by decide

theorem pageEndStep_storePageEnd (bars : Vector Bool 4) (s : State) : PageEndStep bars s (storePageEnd bars s) := by
  have h := judgeSteps_judgeRetirements (allBars_nodup.filter fun b => entry bars b) s
  have hmem : ∀ x, x ∈ allBars.filter (fun b => entry bars b) ↔ entry bars x = true := fun x => by
    simp [mem_allBars]
  have hpages : (storePageEnd bars s).pages = s.pages :=
    (evaluateStarve_pages _).trans ((refreshCursors_pages _).trans h.pages)
  have hbar : ∀ x, (storePageEnd bars s).bar x =
      (refreshCursors (judgeRetirements (allBars.filter fun b => entry bars b) s)).bar x :=
    fun x => State.bar_congr (evaluateStarve_bars _) x
  exact
    { posts := h.posts.trans
        ((postsOnly_refreshCursors _).trans (postsOnly_evaluateStarve (P := (· = .starve)) rfl _))
      control := (rowEvent_storePageEnd bars s).control
      geometry := (evaluateStarve_geometry _).trans ((refreshCursors_geometry _).trans h.geometry)
      pages := hpages
      rows := storePageEnd_rows bars s
      kept := fun x hx => by
        rw [hbar, refreshCursors_bar, h.other_bars x (by rw [hmem, hx]; simp)]
        exact ⟨rfl, rfl⟩
      judged := fun x hx htail => by
        rw [hbar, refreshCursors_bar]
        exact h.judged x ((hmem x).mpr hx) htail
      cursor := fun x => by
        rw [hbar, refreshCursors_bar, hpages, h.pages]
        exact (cursorOf_core rfl rfl x).symm
      starve := starveSettled_evaluateStarve _ }

end Sys2Proof.Machine
end

section
/-! PROOF. Moving on after a fire decision (R88, R91, R92, R42): the row's next line or next page, the page's finish,
and the next load. -/

namespace Sys2Proof.Machine

/-! ### A record at its place in the page queue -/

section
variable {front back : List Page} {p : Page} (hids : ((front ++ p :: back).map (·.id)).Nodup)
include hids

theorem front_ids : ∀ q ∈ front, q.id ≠ p.id := fun q hq he => by
  rw [List.map_append, List.nodup_append] at hids
  exact hids.2.2 q.id (List.mem_map_of_mem hq) p.id (by simp) he

theorem back_ids : ∀ q ∈ back, q.id ≠ p.id := fun q hq he => by
  rw [List.map_append, List.nodup_append, List.map_cons, List.nodup_cons] at hids
  exact hids.2.1.1 (he ▸ List.mem_map_of_mem hq)

/-- A change of the record with an id changes that record alone. -/
theorem changePage_at (f : Page → Page) : changePage p.id f (front ++ p :: back) = front ++ f p :: back := by
  have hkeep : ∀ l : List Page, (∀ q ∈ l, q.id ≠ p.id) → l.map (fun q => if q.id = p.id then f q else q) = l :=
    fun l hl => (List.map_congr_left fun q hq => if_neg (hl q hq)).trans (List.map_id l)
  rw [changePage, List.map_append, List.map_cons, hkeep front (front_ids hids), hkeep back (back_ids hids), if_pos rfl]

theorem findPage_at : findPage (front ++ p :: back) p.id = some p := findPage_append (front_ids hids)

/-- The next STARTED page of a bar is looked for behind the record. -/
theorem nextStarted_at (b : BarId) :
    nextStarted (front ++ p :: back) p.id b = back.find? fun q => q.state = .started && entry q.bars b := by
  have hdrop : (front ++ p :: back).dropWhile (fun q => q.id ≠ p.id) = p :: back := by
    rw [List.dropWhile_append_of_pos (by simpa using front_ids hids), List.dropWhile_cons_of_neg (by simp)]
  rw [nextStarted, pagesBehind, hdrop]
  rfl

theorem findPage_behind {q : Page} (hq : q ∈ back) : findPage (front ++ p :: back) q.id = some q := by
  obtain ⟨l, r, rfl⟩ := List.append_of_mem hq
  have hids' : (((front ++ p :: l) ++ q :: r).map (·.id)).Nodup := by simpa using hids
  have := findPage_at hids'
  simpa using this

end

/-! ### What moving on does -/

/-- What moving on from a line of page `id` does up to the next load: q is the page's record as it stands then, up to
the flags that loads set, and `cursor` and `fire` are the row's. -/
structure Moved (r : RowId) (id : Nat) (q : Page) (cursor : Option Cursor) (fire : Option Nat) (s t : State) :
    Prop where
  page : ∃ p, findPage t.pages id = some p ∧ p.core = q.core ∧ ∃ es, Posts s t es ∧
    (∀ e ∈ es, LoadTopic (rowBar r) e.1 ∨ e = (.pageDone id, .page p.flags p.abortMark)) ∧
    ((.pageDone id, .page p.flags p.abortMark) ∈ es ↔ q.state = .done)
  row : (t.row r).map Row.core = (s.row r).map fun row => { row.core with cursor := cursor, fire := fire }
  control : t.control = s.control
  changeovers : t.geometry.changeovers = s.geometry.changeovers
  judged : q.state = .done → ∀ x, entry q.bars x = true → OnlyTailWithdrawn (retirementDue t x) (s.bar x).ring →
    (t.bar x).ring.map Stripe.untaken = (judgedRing (retirementDue t x) (s.bar x).ring).map Stripe.untaken ∧
    (t.bar x).nextSlot = judgedSlot (retirementDue t x) (s.bar x).ring (s.bar x).nextSlot
  kept : ∀ x, q.state ≠ .done ∨ entry q.bars x = false →
    (t.bar x).ring.map Stripe.untaken = (s.bar x).ring.map Stripe.untaken ∧
    (t.bar x).nextSlot = (s.bar x).nextSlot ∧ (x ≠ rowBar r → (t.bar x).ring = (s.bar x).ring)
  cursors : q.state = .done → ∀ x, (t.bar x).cursor = cursorOf t.pages (t.bar x) x
  starve : q.state = .done → StarveSettled t

theorem loadTopic_ne_pageDone {b : BarId} {e : Topic × Detail} (h : LoadTopic b e.1) (id : Nat) (d : Detail) :
    e ≠ (.pageDone id, d) := by
  rintro rfl
  rcases h with h | h | ⟨_, h⟩ <;> exact Topic.noConfusion h

/-- The next load is of another page, or of a page that is not DONE, and keeps all that. -/
theorem Moved.load {r : RowId} {id page : Nat} {q : Page} {cursor : Option Cursor} {fire : Option Nat}
    {s t u : State} (h : Moved r id q cursor fire s t) (k : LoadStep r page t u)
    (hpage : q.state = .done → page ≠ id) : Moved r id q cursor fire s u := by
  have hdue : ∀ x, retirementDue u x = retirementDue t x := fun x => retirementDue_core k.pages k.cursors x
  exact
    { page := by
        obtain ⟨p, hp, hcore, es, hes, honly, hdone⟩ := h.page
        obtain ⟨fs, hfs, hload⟩ := k.posts
        have hfind := findPage_core k.pages id
        rw [hp, Option.map_some] at hfind
        obtain ⟨p', hp', hcore'⟩ := Option.map_eq_some_iff.mp hfind
        by_cases hq : q.state = .done
        · obtain rfl : p' = p := Option.some.inj ((hp'.symm.trans (k.others id (hpage hq).symm)).trans hp)
          refine ⟨p', hp', hcore, es ++ fs, hes.trans hfs, fun e he => ?_, ?_⟩
          · exact (List.mem_append.mp he).elim (honly e) fun he => .inl (hload e he)
          · exact iff_of_true (List.mem_append_left _ (hdone.mpr hq)) hq
        · have hes' : ∀ e ∈ es ++ fs, LoadTopic (rowBar r) e.1 := by
            refine List.forall_mem_append.mpr ⟨fun e he => (honly e he).resolve_right ?_, hload⟩
            rintro rfl
            exact hq (hdone.mp he)
          refine ⟨p', hp', hcore'.trans hcore, es ++ fs, hes.trans hfs, fun e he => .inl (hes' e he), ?_⟩
          exact iff_of_false (fun he => loadTopic_ne_pageDone (hes' _ he) id _ rfl) hq
      row := (k.rows r).trans h.row
      control := k.control.trans h.control
      changeovers := k.changeovers.trans h.changeovers
      judged := fun hq x hx => by
        rw [hdue, k.ring, k.nextSlot]
        exact h.judged hq x hx
      kept := fun x hx => by
        obtain ⟨h1, h2, h3⟩ := h.kept x hx
        exact ⟨(k.ring x).trans h1, (k.nextSlot x).trans h2,
          fun hne => (congrArg BarStore.ring (k.other_bars x hne)).trans (h3 hne)⟩
      cursors := fun hq x =>
        (k.stripeCursor x).trans ((h.cursors hq x).trans (cursorOf_core k.pages (k.ring x) x).symm)
      starve := fun hq => k.starve (h.starve hq) }

/-! ### The row's next place -/

/-- A change of the row's cursor and fire position alone, the page still at work. -/
theorem moved_updateRow {r : RowId} {s : State} {p : Page} {cursor : Option Cursor} {fire : Option Nat}
    {f : Row → Row} (hp : findPage s.pages p.id = some p) (hstate : p.state = .started)
    (hf : ∀ row, (f row).core = { row.core with cursor := cursor, fire := fire }) :
    Moved r p.id p cursor fire s (s.updateRow r f) := by
  have hdone : p.state ≠ .done := by simp [hstate]
  exact
    { page := ⟨p, hp, rfl, [], posts_nil rfl rfl, by simp, by simp [hstate]⟩
      row := by
        rw [State.row_updateRow_same]
        cases s.row r <;> simp [hf]
      control := rfl
      changeovers := rfl
      judged := fun h => absurd h hdone
      kept := fun _ _ => ⟨rfl, rfl, fun _ => rfl⟩
      cursors := fun h => absurd h hdone
      starve := fun h => absurd h hdone }

/-- The cursor of a row that takes up line 0 of a page, if there is one. -/
def takenUpCursor (next : Option Page) : Option Cursor := next.map fun q => { page := q.id, line := 0 }

/-- Its fire position (R78). -/
def takenUpFire (r : RowId) (s : State) (next : Option Page) : Option Nat :=
  next.map fun q => firePosition (q.start.getD 0) (rowOffset s.geometry r) 0 s.motion.pitch

theorem moved_takeUp {r : RowId} {s : State} {p : Page} {next : Option Page}
    (hp : findPage s.pages p.id = some p) (hstate : p.state = .started)
    (hnext : ∀ q, next = some q → findPage s.pages q.id = some q) :
    Moved r p.id p (takenUpCursor next) (takenUpFire r s next) s (takeUp r next s) := by
  cases next with
  | none => exact moved_updateRow hp hstate fun _ => rfl
  | some q =>
    have hstart : pageStart s.pages q.id = q.start.getD 0 := by rw [pageStart, hnext q rfl]
    refine moved_updateRow hp hstate fun row => ?_
    simp only [Row.core, takenUpCursor, takenUpFire, Option.map_some, hstart]

/-! ### The finish of a page (R42) -/

/-- The record of a page with one more row counted as finished. -/
def Page.oneMore (p : Page) : Page := { p with rowsFinished := p.rowsFinished + 1 }

/-- The record of a page with which one more row has finished. -/
def Page.finished (p : Page) : Page :=
  { p.oneMore with state := if p.rowsFinished + 1 = p.rows then .done else .started }

section
variable {front back : List Page} {p : Page} (hids : ((front ++ p :: back).map (·.id)).Nodup)
  {s : State} (hpages : s.pages = front ++ p :: back)
include hids hpages

theorem updatePage_at (f : Page → Page) : s.updatePage p.id f = { s with pages := front ++ f p :: back } := by
  rw [State.updatePage, hpages, changePage_at hids]

theorem finishPage_at :
    finishPage p.id s =
      if p.state = .started && p.rowsFinished + 1 = p.rows then
        closePage p.oneMore { s with pages := front ++ p.oneMore :: back }
      else { s with pages := front ++ p.oneMore :: back } := by
  have hids' : ((front ++ p.oneMore :: back).map (·.id)).Nodup := by simpa [Page.oneMore] using hids
  have hfind : findPage (front ++ p.oneMore :: back) p.id = some p.oneMore := findPage_at hids'
  have hcount : (s.updatePage p.id fun q => { q with rowsFinished := q.rowsFinished + 1 }) =
      { s with pages := front ++ p.oneMore :: back } := updatePage_at hids hpages _
  simp only [finishPage, hcount, hfind]
  rfl

theorem closePage_at :
    closePage p s = storePageEnd p.bars (post (.pageDone p.id) (.page p.flags p.abortMark)
      { s with pages := front ++ { p with state := .done } :: back }) := by
  have hids' : ((front ++ { p with state := .done } :: back).map (·.id)).Nodup := by simpa using hids
  have hfind : findPage (front ++ { p with state := .done } :: back) p.id = some { p with state := .done } :=
    findPage_at hids'
  rw [closePage, updatePage_at hids hpages, reportDone]
  simp only [hfind]

variable (hstate : p.state = .started)
include hstate

theorem finishPage_started (h : p.rowsFinished + 1 ≠ p.rows) :
    finishPage p.id s = { s with pages := front ++ p.finished :: back } := by
  have hfinished : p.finished = p.oneMore := by simp [Page.finished, Page.oneMore, h, ← hstate]
  rw [finishPage_at hids hpages, hfinished, if_neg (by simp [h])]

theorem finishPage_done (h : p.rowsFinished + 1 = p.rows) :
    finishPage p.id s = storePageEnd p.bars (post (.pageDone p.id) (.page p.flags p.abortMark)
      { s with pages := front ++ p.finished :: back }) := by
  have hids' : ((front ++ p.oneMore :: back).map (·.id)).Nodup := by simpa [Page.oneMore] using hids
  have hfinished : p.finished = { p.oneMore with state := .done } := by simp [Page.finished, h]
  rw [finishPage_at hids hpages, if_pos (by simp [h, hstate]), closePage_at hids' rfl, hfinished]
  rfl

end

/-- The finish of a page hands over its record, and its end where the last row has finished with it. -/
theorem Moved.finish {r : RowId} {front back : List Page} {p : Page} {cursor : Option Cursor} {fire : Option Nat}
    {s t : State} (hids : ((front ++ p :: back).map (·.id)).Nodup) (hpages : t.pages = front ++ p :: back)
    (hstate : p.state = .started) (h : Moved r p.id p cursor fire s t) (hreports : Posts s t [])
    (hbars : ∀ x, t.bar x = s.bar x) :
    Moved r p.id p.finished cursor fire s (finishPage p.id t) := by
  have hids' : ((front ++ p.finished :: back).map (·.id)).Nodup := by simpa [Page.finished, Page.oneMore] using hids
  have hfind : findPage (front ++ p.finished :: back) p.id = some p.finished := findPage_at hids'
  by_cases hdone : p.rowsFinished + 1 = p.rows
  · have hstate' : p.finished.state = .done := by simp [Page.finished, hdone]
    rw [finishPage_done hids hpages hstate hdone]
    have hend := pageEndStep_storePageEnd p.bars (post (.pageDone p.id) (.page p.flags p.abortMark)
      { t with pages := front ++ p.finished :: back })
    have hdue := retirementDue_core (congrArg (List.map Page.core) hend.pages)
      fun q => by rw [State.row_congr hend.rows]
    exact
      { page := by
          obtain ⟨es, hes, hstarve⟩ := hend.posts
          have hpost : Posts t (post (.pageDone p.id) (.page p.flags p.abortMark)
            { t with pages := front ++ p.finished :: back }) [(.pageDone p.id, .page p.flags p.abortMark)] :=
            ⟨rfl, rfl⟩
          refine ⟨p.finished, hend.pages ▸ hfind, rfl, _, (hreports.trans hpost).trans hes, fun e he => ?_, ?_⟩
          · simp only [List.nil_append, List.singleton_append, List.mem_cons] at he
            exact he.elim .inr fun he => .inl (.inl (hstarve e he))
          · exact iff_of_true (List.mem_append_left _ (List.mem_singleton.mpr rfl)) hstate'
        row := by rw [State.row_congr hend.rows]; exact h.row
        control := hend.control.trans h.control
        changeovers := (congrArg Geometry.changeovers hend.geometry).trans h.changeovers
        judged := fun _ x hx htail => by
          rw [hdue] at htail ⊢
          rw [← hbars] at htail ⊢
          obtain ⟨hring, hslot⟩ := hend.judged x hx htail
          exact ⟨congrArg _ hring, hslot⟩
        kept := fun x hx => by
          obtain ⟨hring, hslot⟩ := hend.kept x (hx.resolve_left (not_not.mpr hstate'))
          rw [← hbars]
          exact ⟨congrArg _ hring, hslot, fun _ => hring⟩
        cursors := fun _ => hend.cursor
        starve := fun _ => hend.starve }
  · have hstate' : p.finished.state ≠ .done := by simp [Page.finished, hdone]
    rw [finishPage_started hids hpages hstate hdone]
    exact
      { page := ⟨p.finished, hfind, rfl, [], ⟨hreports.motion, hreports.queue⟩, by simp, by simp [hstate']⟩
        row := h.row
        control := h.control
        changeovers := h.changeovers
        judged := fun hd => absurd hd hstate'
        kept := fun x _ => by
          rw [← hbars]
          exact ⟨rfl, rfl, fun _ => rfl⟩
        cursors := fun hd => absurd hd hstate'
        starve := fun hd => absurd hd hstate' }

/-! ### Moving on -/

section
variable {n : Nat} {r : RowId} {c : Cursor} {front back : List Page} {p : Page} {s : State} {row : Row}
  (hids : ((front ++ p :: back).map (·.id)).Nodup) (hpages : s.pages = front ++ p :: back) (hid : p.id = c.page)
  (hstate : p.state = .started) (hrow : s.row r = some row)
include hids hpages hid hstate hrow

/-- Within a page the row goes on to the next line. -/
theorem moved_next_line (hline : c.line + 1 < p.length) :
    Moved r c.page p (some { page := c.page, line := c.line + 1 })
      (some (firePosition (p.start.getD 0) (rowOffset s.geometry r) (c.line + 1) s.motion.pitch)) s
      (moveOn n r c s) := by
  have hfind : findPage s.pages p.id = some p := hpages ▸ findPage_at hids
  have hstart : pageStart s.pages c.page = p.start.getD 0 := by rw [pageStart, ← hid, hfind]
  have hmove : moveOn n r c s = beginLoad n r (placeCursor r c.page (c.line + 1) s) := by
    simp [moveOn, ← hid, hfind, hline]
  have hplaced : Moved r c.page p _ _ s (placeCursor r c.page (c.line + 1) s) :=
    hid ▸ moved_updateRow hfind hstate fun row => rfl
  rw [hmove, ← hstart]
  have hrow' := State.row_updateRow_same (s := s) r (f := fun row => { row with
    cursor := some { page := c.page, line := c.line + 1 }
    fire := some (firePosition (pageStart s.pages c.page) (rowOffset s.geometry r) (c.line + 1) s.motion.pitch) })
  rw [hrow, Option.map_some] at hrow'
  exact hplaced.load (loadStep_beginLoad hrow' rfl) (by simp [hstate])

/-- Behind the last line of a page the row goes on to the next STARTED page of its bar, or goes idle. -/
theorem moved_next_page (hline : p.length ≤ c.line + 1) :
    let next := back.find? fun q => q.state = .started && entry q.bars (rowBar r)
    Moved r c.page p.finished (takenUpCursor next) (takenUpFire r s next) s (moveOn n r c s) := by
  intro next
  have hfind : findPage s.pages p.id = some p := hpages ▸ findPage_at hids
  have hnext : ∀ q, next = some q → q ∈ back := fun q hq => List.mem_of_find?_eq_some hq
  have hmove : moveOn n r c s = beginLoad n r (finishPage c.page (takeUp r next s)) := by
    have hnot : ¬ c.line + 1 < p.length := by omega
    have hstarted : nextStarted s.pages p.id (rowBar r) = next := hpages ▸ nextStarted_at hids _
    simp [moveOn, ← hid, hfind, hnot, hstarted]
  have htaken := moved_takeUp (r := r) (next := next) hfind hstate
    fun q hq => hpages ▸ findPage_behind hids (hnext q hq)
  have hkept : (takeUp r next s).pages = s.pages ∧ (takeUp r next s).store = s.store ∧
      (takeUp r next s).motion = s.motion ∧ (takeUp r next s).reports = s.reports := by
    cases next <;> exact ⟨rfl, rfl, rfl, rfl⟩
  obtain ⟨hkpages, hkstore, hkmotion, hkreports⟩ := hkept
  have hfinish := htaken.finish hids (hkpages.trans hpages) hstate (posts_nil hkmotion hkreports)
    fun x => State.bar_congr (congrArg Store.bars hkstore) x
  rw [hmove]
  rw [hid] at hfinish
  have hrowcore := hfinish.row
  rw [hrow, Option.map_some, Option.map_eq_some_iff] at hrowcore
  obtain ⟨row', hrow', hcore⟩ := hrowcore
  have hcursor : row'.cursor = takenUpCursor next := congrArg Row.cursor hcore
  cases hn : next with
  | none =>
    have hidle : beginLoad n r (finishPage c.page (takeUp r next s)) = finishPage c.page (takeUp r next s) := by
      unfold beginLoad
      rw [hrow', Option.bind_some, hcursor, hn]
      rfl
    rw [hn] at hfinish hidle
    rw [hidle]
    exact hfinish
  | some q =>
    rw [hn] at hfinish hcursor hrow'
    refine hfinish.load (loadStep_beginLoad hrow' hcursor) fun _ => ?_
    exact hid ▸ back_ids hids q (hnext q hn)

end

end Sys2Proof.Machine
end

section
/-! PROOF. The fire decision (O32): the arrival that one row alone receives, the outcome carried out, moving on, the
stripes judged for retirement, and the changeover judged. -/

namespace Sys2Proof.Machine

/-! ### The arrival -/

theorem arriveAll_of_none {n H : Nat} {rs : List RowId} {s : State}
    (h : ∀ q ∈ rs, (s.row q).bind (·.fire) ≠ some H) : arriveAll n H rs s = s := by
  induction rs with
  | nil => rfl
  | cons q rs ih =>
    obtain ⟨hq, hrs⟩ := List.forall_mem_cons.mp h
    rw [arriveAll, arrive, if_neg hq, ih hrs]

/-- Where one row alone receives the arrival, its fire decision is all that happens, whatever the order of rows. -/
theorem arriveAll_of_only {n H : Nat} {r : RowId} {rs : List RowId} {s : State} (hrs : rs.Nodup) (hr : r ∈ rs)
    (hfire : (s.row r).bind (·.fire) = some H) (honly : ∀ q, q ≠ r → (s.row q).bind (·.fire) ≠ some H) :
    arriveAll n H rs s = fireDecision n r s := by
  induction rs with
  | nil => simp at hr
  | cons q rs ih =>
    obtain ⟨hq, hrs⟩ := List.nodup_cons.mp hrs
    by_cases hqr : q = r
    · subst hqr
      rw [arriveAll, arrive, if_pos hfire]
      refine arriveAll_of_none fun k hk => ?_
      have hne : k ≠ q := fun he => hq (he ▸ hk)
      rw [fireDecision_row_of_ne n hne.symm]
      exact honly k hne
    · rw [arriveAll, arrive, if_neg (honly q hqr)]
      exact ih hrs ((List.mem_cons.mp hr).resolve_left (Ne.symm hqr))

/-- The state at a new-ground advance, before its arrivals (R23). -/
def advanced (a b : Bool) (env : Outside) (s : State) : State :=
  (upset env.upsets s).updateMotion fun m => Motion.forwardTick { m with phaseA := a, phaseB := b }

theorem advanced_motion {a b : Bool} {env : Outside} {s : State} (hpos : s.motion.pos = s.motion.hwm)
    (htop : s.motion.hwm < 281474976710655) :
    (advanced a b env s).motion.pos = s.motion.hwm + 1 ∧ (advanced a b env s).motion.hwm = s.motion.hwm + 1 ∧
      (advanced a b env s).motion.pitch = s.motion.pitch := by
  have htop' : s.motion.hwm < Config.maxPosition := htop
  simp [advanced, Motion.forwardTick, hpos, htop']

theorem exec_encoderChange_of_only {a b : Bool} {env : Outside} {r : RowId} {s : State}
    (hop : s.control.op = .online) (hclass : classify s.motion a b = some .forward)
    (hpos : s.motion.pos = s.motion.hwm) (htop : s.motion.hwm < 281474976710655)
    (hfire : (s.row r).bind (·.fire) = some (s.motion.hwm + 1))
    (honly : ∀ q : RowId, q ≠ r → (s.row q).bind (·.fire) ≠ some (s.motion.hwm + 1)) :
    exec (.encoderChange a b env) s = .next (fireDecision env.fetched r (advanced a b env s)) := by
  obtain ⟨-, hhwm, -⟩ := advanced_motion (a := a) (b := b) (env := env) hpos htop
  have htick : passOn env (some .forward) ((upset env.upsets s).updateMotion fun m => { m with phaseA := a, phaseB := b }) =
      if s.motion.hwm < (advanced a b env s).motion.hwm then
        arriveAll env.fetched (advanced a b env s).motion.hwm (rowOrder env) (advanced a b env s)
      else advanced a b env s := if_pos hop
  change Host.Outcome.next (passOn env (classify s.motion a b) _) = _
  have hdecide : arriveAll env.fetched (s.motion.hwm + 1) (rowOrder env) (advanced a b env s) =
      fireDecision env.fetched r (advanced a b env s) :=
    arriveAll_of_only (rowOrder_nodup env) (mem_rowOrder env r) hfire honly
  rw [hclass, htick, hhwm, if_pos (Nat.lt_succ_self _), hdecide]

/-! ### The outcome carried out -/

/-- The drive after a decision: a fired line starts a play (R86, R114), a dropped line leaves the drive alone (R87). -/
def decidedDrive (r : RowId) (o : LineOutcome) (s : State) (drive : Drive) : Drive :=
  match o with
  | .fired list => .playing
    { steps := playSteps (entry s.drives.waveforms (rowBar r)) (entry s.drives.scales (rowBar r))
        s.control.guard.ceiling
      codes := list.codes }
  | .dropped _ => drive

/-- What a decision posts at the row (R87, R119). -/
def decidedReports (r : RowId) (c : Cursor) (o : LineOutcome) (s : State) : List (Topic × Detail) :=
  match o with
  | .fired _ =>
    (levelRequested (entry s.drives.waveforms (rowBar r)) (entry s.drives.scales (rowBar r))
      s.control.guard.ceiling).toList.map fun n => (.driveClamped (rowBar r), .level n)
  | .dropped cause => [(.lineDropped c.page r, .drop cause c.line)]

/-- What carrying an outcome out does, and leaves as it stands. -/
structure CarriedOut (r : RowId) (c : Cursor) (o : LineOutcome) (s t : State) : Prop where
  posts : Posts s t (decidedReports r c o s)
  row : (t.row r).map Row.core = (s.row r).map fun row => { row.core with drive := decidedDrive r o s row.drive }
  control : t.control = s.control
  geometry : t.geometry = s.geometry
  pages : t.pages = s.pages
  store : t.store = s.store

theorem row_updateRow_core {r : RowId} {s : State} {f : Row → Row} {drive : Row → Drive}
    (hf : ∀ row, (f row).core = { row.core with drive := drive row }) :
    ((s.updateRow r f).row r).map Row.core = (s.row r).map fun row => { row.core with drive := drive row } := by
  rw [State.row_updateRow_same, Option.map_map]
  exact congrArg (fun g => (s.row r).map g) (funext hf)

theorem carriedOut_startPlay {r : RowId} {c : Cursor} {s : State} {list : CodeList} :
    CarriedOut r c (.fired list) s (startPlay r list.codes s) := by
  unfold startPlay
  dsimp only
  split <;> rename_i hlevel
  · exact
      { posts := by
          rw [decidedReports, hlevel]
          exact ⟨rfl, rfl⟩
        row := row_updateRow_core fun _ => rfl
        control := rfl, geometry := rfl, pages := rfl, store := rfl }
  · exact
      { posts := by
          rw [decidedReports, hlevel]
          exact ⟨rfl, rfl⟩
        row := row_updateRow_core fun _ => rfl
        control := rfl, geometry := rfl, pages := rfl, store := rfl }

theorem carriedOut_clearLatch {r : RowId} {c : Cursor} {s : State} {cause : DropCause} :
    CarriedOut r c (.dropped cause) s (post (.lineDropped c.page r) (.drop cause c.line) (clearLatch r s)) := by
  unfold clearLatch
  split <;> rename_i hrow
  · exact
      { posts := ⟨rfl, rfl⟩
        row := by
          change (s.row r).map _ = _
          rw [hrow]
          rfl
        control := rfl, geometry := rfl, pages := rfl, store := rfl }
  · exact
      { posts := ⟨rfl, rfl⟩
        row := row_updateRow_core fun _ => rfl
        control := rfl, geometry := rfl, pages := rfl, store := rfl }

theorem carriedOut (r : RowId) (c : Cursor) (o : LineOutcome) (s : State) : CarriedOut r c o s (carryOut r c o s) := by
  cases o with
  | fired list => exact carriedOut_startPlay
  | dropped cause => exact carriedOut_clearLatch

/-- Once the outcome has been counted too, the Stripe Store still stands as it did. -/
theorem counted_bar (r : RowId) (c : Cursor) (o : LineOutcome) (s : State) (x : BarId) :
    ((carryOut r c o s).updatePage c.page fun p => p.count o).bar x = s.bar x :=
  State.bar_congr (congrArg Store.bars (carriedOut r c o s).store) x

/-! ### Retirement -/

theorem judged_congr_untaken {due : Stripe → Bool} (hfree : MarkFree due) {ring ring' : List Stripe}
    (h : ring'.map Stripe.untaken = ring.map Stripe.untaken) (next : Option Nat) :
    (OnlyTailWithdrawn due ring' ↔ OnlyTailWithdrawn due ring) ∧
    (judgedRing due ring').map Stripe.untaken = (judgedRing due ring).map Stripe.untaken ∧
    judgedSlot due ring' next = judgedSlot due ring next := by
  refine ⟨?_, ?_, ?_⟩
  · rw [← onlyTailWithdrawn_untaken hfree, h, onlyTailWithdrawn_untaken hfree]
  · rw [← judgedRing_untaken hfree, h, judgedRing_untaken hfree]
  · rw [← judgedSlot_untaken hfree, h, judgedSlot_untaken hfree]

section
variable {r : RowId} {id : Nat} {q : Page} {cursor : Option Cursor} {fire : Option Nat} {s t u : State}
  (h : Moved r id q cursor fire s t) (k : JudgeStep (rowBar r) t u)
include h k

/-- The bar's stripes are judged for retirement, and those of every bar of a page that is DONE (R64, R65). -/
theorem Moved.retirementJudged (hcomplete : ∀ x : BarId, ∀ st ∈ (s.bar x).ring.dropLast, st.state = .complete)
    {x : BarId} (hx : x = rowBar r ∨ q.state = .done ∧ entry q.bars x = true) : RetirementJudged s u x := by
  have hfree := markFree_retirementDue t x
  have htail := onlyTailWithdrawn_of_complete (hcomplete x) (retirementDue t x)
  suffices hju : (u.bar x).ring.map Stripe.untaken =
      (judgedRing (retirementDue t x) (s.bar x).ring).map Stripe.untaken ∧
      (u.bar x).nextSlot = judgedSlot (retirementDue t x) (s.bar x).ring (s.bar x).nextSlot by
    rw [← k.due x] at hju
    exact ⟨hju.1, hju.2⟩
  by_cases hdone : q.state = .done ∧ entry q.bars x = true
  · obtain ⟨hring, hslot⟩ := h.judged hdone.1 x hdone.2 htail
    by_cases hbar : x = rowBar r
    · subst hbar
      obtain ⟨htail', hring', hslot'⟩ := judged_congr_untaken hfree hring (t.bar (rowBar r)).nextSlot
      obtain ⟨kring, kslot⟩ := k.judged (htail'.mpr (onlyTailWithdrawn_judgedRing hfree _))
      rw [kring, kslot, hring', hslot', judgedRing_idem hfree, judgedSlot_judgedRing hfree, hslot]
      exact ⟨rfl, rfl⟩
    · rw [k.other_bars x hbar]
      exact ⟨hring, hslot⟩
  · have hbar : x = rowBar r := hx.resolve_right hdone
    subst hbar
    obtain ⟨hring, hslot, -⟩ := h.kept (rowBar r) (by
      rw [not_and_or, Bool.not_eq_true] at hdone
      exact hdone)
    obtain ⟨htail', hring', hslot'⟩ := judged_congr_untaken hfree hring (t.bar (rowBar r)).nextSlot
    obtain ⟨kring, kslot⟩ := k.judged (htail'.mpr htail)
    rw [kring, kslot, hring', hslot', hslot]
    exact ⟨rfl, rfl⟩

theorem Moved.ring_kept {x : BarId} (hx : x ≠ rowBar r) (hkept : q.state ≠ .done ∨ entry q.bars x = false) :
    (u.bar x).ring = (s.bar x).ring := by
  rw [k.other_bars x hx, (h.kept x hkept).2.2 hx]

theorem Moved.cursor_refreshed {x : BarId} (hx : x = rowBar r ∨ q.state = .done) :
    (u.bar x).cursor = cursorOf u.pages (u.bar x) x := by
  by_cases hbar : x = rowBar r
  · subst hbar
    exact k.cursor
  · rw [k.other_bars x hbar, k.pages]
    exact h.cursors (hx.resolve_left hbar) x

/-- At the end of a page the starve condition stands evaluated (R68, R69). -/
theorem Moved.starve_evaluated (hop : s.control.op = .online) (hdone : q.state = .done) :
    u.store.starve = true ↔ ∃ x, BarAtRisk u x := by
  have hsettled : u.store.starve = starveHolds u := k.starve (h.starve hdone)
  rw [hsettled, starveHolds_iff, k.control, h.control]
  exact and_iff_right hop

end

/-! ### The changeover -/

/-- A row holds a changeover open where its cursor stands at or before the last held line. -/
theorem rowHolds_iff {ps : List Page} {co : Changeover} {row : Option Row} :
    rowHolds ps co row = true ↔ ∃ line, row.bind (·.cursor) = some line ∧
      (pageStart ps line.page < co.start ∨ pageStart ps line.page = co.start ∧ line.line ≤ co.line) := by
  unfold rowHolds
  cases row.bind (·.cursor) with
  | none => simp
  | some line => simp [atOrBefore_iff]

/-- A changeover of the bar closes once no row of the bar stands at or before the last held line (R18). -/
theorem judgeChangeover_closes (b : BarId) (s : State) :
    ∃ cs, judgeChangeover b s = { s with geometry := { s.geometry with changeovers := cs } } ∧
      (∀ co, entry s.geometry.changeovers b = some co →
        ((∃ q line, rowBar q = b ∧ ((s.row q).bind (·.cursor)) = some line ∧
          (pageStart s.pages line.page < co.start ∨
            pageStart s.pages line.page = co.start ∧ line.line ≤ co.line)) → entry cs b = some co) ∧
        ((∀ q line, rowBar q = b → ((s.row q).bind (·.cursor)) = some line →
          co.start < pageStart s.pages line.page ∨
            pageStart s.pages line.page = co.start ∧ co.line < line.line) → entry cs b = none)) ∧
      ∀ x, x ≠ b ∨ entry s.geometry.changeovers x = none → entry cs x = entry s.geometry.changeovers x := by
  cases hco : entry s.geometry.changeovers b with
  | none =>
    refine ⟨s.geometry.changeovers, ?_, by simp, fun _ _ => rfl⟩
    rw [judgeChangeover, hco]
  | some co =>
    by_cases hany : ((barRows b).any fun q => rowHolds s.pages co (s.row q)) = true
    · refine ⟨s.geometry.changeovers, ?_, fun co' hco' => ⟨fun _ => hco.trans hco', fun hbehind => ?_⟩, fun _ _ => rfl⟩
      · simp only [judgeChangeover, hco, if_pos hany]
      · obtain rfl := Option.some.inj hco'
        obtain ⟨q, hq, hholds⟩ := List.any_eq_true.mp hany
        obtain ⟨line, hline, hat⟩ := rowHolds_iff.mp hholds
        have := hbehind q line (mem_barRows.mp hq) hline
        omega
    · refine ⟨put s.geometry.changeovers b none, ?_, fun co' hco' => ⟨fun hstands => ?_, fun _ => entry_put_same ..⟩,
        fun x hx => entry_put_of_ne _ _ fun he => ?_⟩
      · simp only [judgeChangeover, hco, if_neg hany]
      · obtain rfl := Option.some.inj hco'
        obtain ⟨q, line, hq, hline, hat⟩ := hstands
        exact absurd (List.any_eq_true.mpr ⟨q, mem_barRows.mpr hq, rowHolds_iff.mpr ⟨line, hline, hat⟩⟩) hany
      · subst he
        simp [hco] at hx

end Sys2Proof.Machine
end

section
/-! PROOF. The outcomes of the fire decision (O32). -/

namespace Sys2Proof.Machine

/-! ### The page's record -/

/-- The counts of a page's record that a fire decision changes, with the marks of its end. -/
def Page.tally (p : Page) : Nat × Nat × DropCounts × Nat × Bool × Bool × AbortMark :=
  (p.fired, p.blank, p.dropped, p.abandoned, p.flags.dropped, p.flags.aborted, p.abortMark)

theorem Page.count_frame (p : Page) (o : LineOutcome) :
    (p.count o).id = p.id ∧ (p.count o).length = p.length ∧ (p.count o).bars = p.bars ∧ (p.count o).rows = p.rows ∧
      (p.count o).rowsFinished = p.rowsFinished ∧ (p.count o).state = p.state ∧ (p.count o).start = p.start := by
  cases o <;> exact ⟨rfl, rfl, rfl, rfl, rfl, rfl, rfl⟩

/-! ### Moving on, in both cases -/

/-- The record, the cursor and the fire position after moving on from a line of the page p (R91, R92, R42). -/
structure MovesOn (r : RowId) (c : Cursor) (p : Page) (back : List Page) (s : State) (q : Page)
    (cursor : Option Cursor) (fire : Option Nat) : Prop where
  tally : q.tally = p.tally
  bars : q.bars = p.bars
  within : c.line + 1 < p.length →
    cursor = some { page := c.page, line := c.line + 1 } ∧
    fire = some (firePosition (p.start.getD 0) (rowOffset s.geometry r) (c.line + 1) s.motion.pitch) ∧
    q.state = .started ∧ q.rowsFinished = p.rowsFinished
  behind : p.length ≤ c.line + 1 →
    cursor = takenUpCursor (back.find? fun q => q.state = .started && entry q.bars (rowBar r)) ∧
    fire = takenUpFire r s (back.find? fun q => q.state = .started && entry q.bars (rowBar r)) ∧
    q.state = (if p.rowsFinished + 1 = p.rows then .done else .started) ∧ q.rowsFinished = p.rowsFinished + 1

theorem moved_moveOn {n : Nat} {r : RowId} {c : Cursor} {front back : List Page} {p : Page} {s : State} {row : Row}
    (hids : ((front ++ p :: back).map (·.id)).Nodup) (hpages : s.pages = front ++ p :: back) (hid : p.id = c.page)
    (hstate : p.state = .started) (hrow : s.row r = some row) :
    ∃ q cursor fire, Moved r c.page q cursor fire s (moveOn n r c s) ∧ MovesOn r c p back s q cursor fire := by
  by_cases hline : c.line + 1 < p.length
  · exact ⟨p, _, _, moved_next_line hids hpages hid hstate hrow hline, rfl, rfl, fun _ => ⟨rfl, rfl, hstate, rfl⟩,
      fun h => absurd hline (Nat.not_lt.mpr h)⟩
  · exact ⟨p.finished, _, _, moved_next_page hids hpages hid hstate hrow (Nat.not_lt.mp hline), rfl, rfl,
      fun h => absurd h hline, fun _ => ⟨rfl, rfl, rfl, rfl⟩⟩

/-! ### The decision -/

/-- A fire decision: the outcome is carried out and counted, the row moves on, and the bar is judged. -/
theorem fireDecision_decided {n : Nat} {r : RowId} {c : Cursor} {front back : List Page} {p : Page} {s : State}
    {row : Row} {o : LineOutcome} (hids : ((front ++ p :: back).map (·.id)).Nodup)
    (hpages : s.pages = front ++ p :: back) (hid : p.id = c.page) (hstate : p.state = .started)
    (hrow : s.row r = some row) (hcursor : row.cursor = some c)
    (ho : judgeLine (decide ((s.port (portOf r)).state = .fault)) row = some o) :
    ∃ q cursor fire t, fireDecision n r s = judgeChangeover (rowBar r) (judgeRetirement (rowBar r) t) ∧
      Moved r c.page q cursor fire ((carryOut r c o s).updatePage c.page fun p => p.count o) t ∧
      MovesOn r c (p.count o) back s q cursor fire := by
  have hcarry := carriedOut r c o s
  obtain ⟨hcid, -, -, -, -, hcstate, -⟩ := p.count_frame o
  have hrowcore := hcarry.row
  rw [hrow, Option.map_some, Option.map_eq_some_iff] at hrowcore
  obtain ⟨row', hrow', -⟩ := hrowcore
  have hcount : ((carryOut r c o s).updatePage c.page fun p => p.count o).pages = front ++ p.count o :: back := by
    rw [← hid, updatePage_at hids (hcarry.pages.trans hpages)]
  have hids' : ((front ++ p.count o :: back).map (·.id)).Nodup := by
    rw [List.map_append, List.map_cons, hcid]
    simpa using hids
  obtain ⟨q, cursor, fire, hmoved, hon⟩ := moved_moveOn (n := n) (r := r) hids' hcount (hcid.trans hid)
    (hcstate.trans hstate) hrow'
  refine ⟨q, cursor, fire, _, ?_, hmoved, ?_⟩
  · simp only [fireDecision, hrow, hcursor, ho]
    rfl
  · have hgeometry : ((carryOut r c o s).updatePage c.page fun p => p.count o).geometry = s.geometry := hcarry.geometry
    have hmotion : ((carryOut r c o s).updatePage c.page fun p => p.count o).motion = s.motion := hcarry.posts.motion
    exact
      { hon with
        within := hgeometry ▸ hmotion ▸ hon.within
        behind := by
          have := hon.behind
          rw [takenUpFire, hgeometry, hmotion] at this
          exact this }


/-- The row after its decision. -/
theorem row_decided {r : RowId} {c : Cursor} {o : LineOutcome} {q : Page} {cursor : Option Cursor}
    {fire : Option Nat} {s t : State} {row : Row} (hrow : s.row r = some row)
    (hmoved : Moved r c.page q cursor fire ((carryOut r c o s).updatePage c.page fun p => p.count o) t) :
    ∃ row', t.row r = some row' ∧ row'.errors = row.errors ∧ row'.drive = decidedDrive r o s row.drive ∧
      row'.cursor = cursor ∧ row'.fire = fire := by
  have hcarry := (carriedOut r c o s).row
  have hmove : (t.row r).map Row.core =
      ((carryOut r c o s).row r).map fun row => { row.core with cursor := cursor, fire := fire } := hmoved.row
  rw [hrow, Option.map_some, Option.map_eq_some_iff] at hcarry
  obtain ⟨row1, hrow1, hcore1⟩ := hcarry
  rw [hrow1, Option.map_some, Option.map_eq_some_iff] at hmove
  obtain ⟨row2, hrow2, hcore2⟩ := hmove
  refine ⟨row2, hrow2, ?_, ?_, ?_, ?_⟩
  · exact show row2.core.errors = row.core.errors by rw [hcore2, hcore1]
  · exact show row2.core.drive = _ by rw [hcore2]; exact show row1.core.drive = _ by rw [hcore1]
  · exact show row2.core.cursor = cursor by rw [hcore2]
  · exact show row2.core.fire = fire by rw [hcore2]

/-- What a decision and the judgement after it post: the outcome's own reports, then those of moving on. -/
theorem reports_decided {r : RowId} {c : Cursor} {o : LineOutcome} {q : Page} {cursor : Option Cursor}
    {fire : Option Nat} {s t u : State}
    (hmoved : Moved r c.page q cursor fire ((carryOut r c o s).updatePage c.page fun p => p.count o) t)
    (hjudge : JudgeStep (rowBar r) t u) :
    ∃ p later, findPage u.pages c.page = some p ∧ p.core = q.core ∧
      u.reports.queue = (decidedReports r c o s ++ later).foldl (fun q e => postTo s.motion.pos e.1 e.2 q)
        s.reports.queue ∧
      (∀ e ∈ later, LoadTopic (rowBar r) e.1 ∨ e = (.pageDone c.page, .page p.flags p.abortMark)) ∧
      ((.pageDone c.page, .page p.flags p.abortMark) ∈ later ↔ q.state = .done) := by
  obtain ⟨p, hp, hcore, es, hes, honly, hdone⟩ := hmoved.page
  obtain ⟨fs, hfs, hstarve⟩ := hjudge.posts
  have hcarry := (carriedOut r c o s).posts
  have hcount : Posts (carryOut r c o s) ((carryOut r c o s).updatePage c.page fun p => p.count o) [] := posts_nil rfl rfl
  have hall := (hcarry.trans (hcount.trans hes)).trans hfs
  have hload : ∀ e ∈ fs, LoadTopic (rowBar r) e.1 := fun e he => .inl (hstarve e he)
  refine ⟨p, es ++ fs, hjudge.pages ▸ hp, hcore, ?_, ?_, ?_⟩
  · rw [hall.queue, List.nil_append, List.append_assoc]
  · exact List.forall_mem_append.mpr ⟨honly, fun e he => .inl (hload e he)⟩
  · rw [List.mem_append, hdone, or_iff_left]
    exact fun he => loadTopic_ne_pageDone (hload _ he) _ _ rfl

/-- Which stripes are due, by the state of their page (R64). -/
theorem retirementDue_cases {u : State} {x : BarId} {st : Stripe} {q : Page} (hq : findPage u.pages st.page = some q) :
    (q.state = .opened → retirementDue u x st = false) ∧ (q.state = .done → retirementDue u x st = true) ∧
    (q.state = .started → (retirementDue u x st = true ↔ st.state = .complete ∧
      ∀ k line, rowBar k = x → ((u.row k).bind (·.cursor)) = some line →
        if line.page = st.page then 64 * st.index + st.rows - 1 < line.line
        else q.start.getD 0 < pageStart u.pages line.page)) := by
  have hid : q.id = st.page := by simpa using List.find?_some hq
  refine ⟨fun h => by simp [retirementDue, hq, h], fun h => by simp [retirementDue, hq, h], fun h => ?_⟩
  have hpassed : ∀ k e, rowPassed u.pages (u.row k) q e = true ↔ ∀ line, ((u.row k).bind (·.cursor)) = some line →
      if line.page = st.page then e < line.line else q.start.getD 0 < pageStart u.pages line.page := fun k e => by
    unfold rowPassed
    cases (u.row k).bind (·.cursor) with
    | none => simp
    | some line => rw [hid]; split <;> simp [*]
  simp only [retirementDue, hq, h, Bool.and_eq_true, decide_eq_true_eq, List.all_eq_true, mem_barRows, hpassed]
  exact and_congr_right fun _ => forall_congr' fun k => ⟨fun h line hk => h hk line, fun h hk line => h line hk⟩

/-- Settles O32: the arrival is the row's own decision; what each of its steps does is stated by `CarriedOut`, `Moved`,
`JudgeStep` and `judgeChangeover_closes`, and the parts of the statement are read off these. -/
theorem fireDecisionOutcomes : Obligations.FireDecisionOutcomes := by
  intro a b env r row c front back p s hop hclass hpos htop hrow hcursor hfire honly hids hpages hid hstate hcomplete
  dsimp only
  refine ⟨fun o ho => ?_, fun _ => rfl, fun play hplay => ?_, fun hrest => ⟨?_, ?_, ?_⟩, fun u x st q hq => ?_⟩
  · obtain ⟨hpos', -, hpitch⟩ := advanced_motion (a := a) (b := b) (env := env) hpos htop
    rw [hpages] at hids
    obtain ⟨q, cursor, fire, t, hdecide, hmoved, hon⟩ :=
      fireDecision_decided (n := env.fetched) (s := advanced a b env s) hids hpages hid hstate hrow hcursor ho
    have hjudge := judgeStep_judgeRetirement (rowBar r) t
    obtain ⟨row', hrow', herrors, hdrive, hcursor', hfire'⟩ := row_decided (s := advanced a b env s) hrow hmoved
    obtain ⟨p', later, hp', hcore, hqueue, hlater, hdone⟩ := reports_decided hmoved hjudge
    obtain ⟨cs, hclose, hchangeover, hothers⟩ := judgeChangeover_closes (rowBar r) (judgeRetirement (rowBar r) t)
    have hexec := (exec_encoderChange_of_only (b := b) (env := env) hop hclass hpos htop
      (by rw [hrow, Option.bind_some, hfire]) honly).trans (congrArg _ (hdecide.trans hclose))
    obtain ⟨-, hlength, hbars, hrows, hfinished, -, hstart⟩ := p.count_frame o
    have hbars' : q.bars = p.bars := hon.bars.trans hbars
    have hstate' : p'.state = q.state := Page.field_of_core Page.state (fun _ => rfl) hcore
    have hfinished' : p'.rowsFinished = q.rowsFinished := Page.field_of_core Page.rowsFinished (fun _ => rfl) hcore
    have htally : p'.tally = (p.count o).tally := (Page.field_of_core Page.tally (fun _ => rfl) hcore).trans hon.tally
    have hbar : ∀ x, ((carryOut r c o (advanced a b env s)).updatePage c.page fun p => p.count o).bar x = s.bar x :=
      counted_bar r c o (advanced a b env s)
    have hopen : (judgeRetirement (rowBar r) t).geometry.changeovers = s.geometry.changeovers := by
      rw [hjudge.geometry, hmoved.changeovers]
      exact congrArg Geometry.changeovers (carriedOut r c o (advanced a b env s)).geometry
    refine ⟨_, p', row', later, hexec, hp', (State.row_congr hjudge.rows r).trans hrow', herrors, ?_, ?_, ?_, ?_, ?_,
      ?_, ?_, ?_, ?_, ?_, ?_, ?_, ?_⟩
    · exact htally.trans (by cases o <;> rfl)
    · exact hdrive.trans (by cases o <;> rfl)
    · intro hline
      obtain ⟨hc, hf, hs, hn⟩ := hon.within (by rwa [hlength])
      rw [hcursor', hfire', hstate', hfinished', hs, hn, hfinished, hc, hf, hstart, hpitch]
      exact ⟨rfl, rfl, rfl⟩
    · intro hline
      obtain ⟨hc, hf, hs, hn⟩ := hon.behind (by rwa [hlength])
      rw [hcursor', hfire', hstate', hfinished', hs, hn, hfinished, hrows, hc, hf, takenUpFire, hpitch]
      refine ⟨?_, rfl⟩
      cases back.find? fun q => q.state = .started && entry q.bars (rowBar r) <;> exact ⟨rfl, rfl⟩
    · rw [hpos'] at hqueue
      exact hqueue.trans (by cases o <;> rfl)
    · intro e he
      rcases hlater e he with (h | h | h) | h
      · exact .inl h
      · exact .inr (.inl h)
      · exact .inr (.inr (.inl h))
      · exact .inr (.inr (.inr h))
    · rw [hdone, hstate']
    · intro x hx
      rw [hstate', ← hbars'] at hx
      have hjudged := hmoved.retirementJudged hjudge (fun y => by rw [hbar]; exact hcomplete y) hx
      exact ⟨hbar x ▸ hjudged.ring, hbar x ▸ hjudged.next_slot⟩
    · intro x hx hkept
      rw [hstate', ← hbars'] at hkept
      exact (hmoved.ring_kept hjudge hx hkept).trans (by rw [hbar])
    · intro x hx
      rw [hstate'] at hx
      exact hmoved.cursor_refreshed hjudge hx
    · have hop' : (carryOut r c o (advanced a b env s)).control.op = .online := by
        rw [(carriedOut r c o (advanced a b env s)).control]
        exact hop
      intro hd
      have hstarve := hmoved.starve_evaluated hjudge hop' (hstate' ▸ hd)
      exact hstarve
    · exact fun co hco => hchangeover co (by rw [hopen, hco])
    · exact fun x hx => (hothers x (by rwa [hopen])).trans (by rw [hopen])
  · simp [judgeLine, hplay]
  · exact fun k list hready => by simp [judgeLine, hrest, hready]
  · exact fun k load hloading => by simp [judgeLine, hrest, hloading]
  · exact fun k hfailed => by simp [judgeLine, hrest, hfailed]
  · exact retirementDue_cases hq

end Sys2Proof.Machine
end

section
/-! PROOF. The two views of the part that motion, pages and rows depend on: the schedule (who is to fire where, and
what the pages have counted) and the seats (what the rows and their ports hold). The commands that change neither. -/

namespace Sys2Proof.Machine

/-! ### The two views -/

/-- A page record without what the Stripe Store and the loads mark in it. -/
def Page.ledger (p : Page) : Page :=
  { p with complete := Vector.replicate 4 0, flags := { p.flags with underrun := false, memory := false } }

/-- Where a row stands. -/
def Row.place (row : Row) : Option Cursor × Option Nat := (row.cursor, row.fire)

/-- What the Motion Unit, the accounts of the pages and the fire positions depend on. -/
structure Schedule where
  motion : Motion
  heads : Vector (Option Head) 16
  pages : List Page
  places : RowId → Option (Option Cursor × Option Nat)

/-- What the agreement of the rows with their ports depends on. -/
structure Seats where
  op : OpState
  heads : Vector (Option Head) 16
  rows : Vector (Option Row) 32
  ports : Vector Port 16

/-- The schedule of a state. -/
def State.schedule (s : State) : Schedule where
  motion := s.motion
  heads := s.geometry.heads
  pages := s.pages.map Page.ledger
  places := fun r => (s.row r).map Row.place

/-- The seats of a state. -/
def State.seats (s : State) : Seats where
  op := s.control.op
  heads := s.geometry.heads
  rows := s.rows
  ports := s.ports

/-- Neither view changes, and no CLEAR HEAD FAULT begins. -/
structure Steady (s t : State) : Prop where
  schedule : t.schedule = s.schedule
  seats : t.seats = s.seats
  clearing : ∀ p stage, t.link.busy = some (.clearFault p stage) → s.link.busy = some (.clearFault p stage)

theorem Steady.refl (s : State) : Steady s s := ⟨rfl, rfl, fun _ _ h => h⟩

theorem Steady.trans {s t u : State} (h : Steady s t) (k : Steady t u) : Steady s u :=
  ⟨k.schedule.trans h.schedule, k.seats.trans h.seats, fun p stage hu => h.clearing p stage (k.clearing p stage hu)⟩

theorem changePage_ledger {id : Nat} {f : Page → Page} (hf : ∀ p, (f p).ledger = p.ledger) (ps : List Page) :
    (changePage id f ps).map Page.ledger = ps.map Page.ledger := by
  rw [changePage, List.map_map]
  refine List.map_congr_left fun p _ => ?_
  rw [Function.comp_apply, apply_ite Page.ledger, hf, ite_self]

/-- A change of the marks in one page's record. -/
theorem steady_updatePage (s : State) (id : Nat) {f : Page → Page} (hf : ∀ p, (f p).ledger = p.ledger) :
    Steady s (s.updatePage id f) :=
  { Steady.refl s with
    schedule := by simp only [State.schedule, State.updatePage_pages, changePage_ledger hf]; rfl }

theorem steady_updateBar (s : State) (b : BarId) (f : BarStore → BarStore) : Steady s (s.updateBar b f) :=
  { Steady.refl s with }

/-! ### The Stripe Store -/

theorem steady_refreshCursors (s : State) : Steady s (refreshCursors s) := { Steady.refl s with }

theorem steady_evaluateStarve (s : State) : Steady s (evaluateStarve s) := by
  unfold evaluateStarve
  split <;> split
  · exact Steady.refl s
  · exact { Steady.refl s with }
  · exact { Steady.refl s with }
  · exact Steady.refl s

theorem steady_readWord (k : ReadKey) (place word : Nat) (s : State) : Steady s (readWord k place word s).2 := by
  unfold readWord
  split
  · exact Steady.refl s
  · exact { Steady.refl s with }
  · have h := steady_updatePage s k.page (f := fun p => { p with flags := { p.flags with memory := true } })
      fun _ => rfl
    exact { h with }

theorem steady_readWords (k : ReadKey) (place : Nat) (ws : List Nat) (s : State) :
    Steady s (readWords k place ws s).2 := by
  induction ws generalizing s with
  | nil => exact Steady.refl s
  | cons w ws ih => exact (steady_readWord k place w s).trans (ih _)

theorem steady_readbackWords (n : Nat) (rb : Readback) (s : State) : Steady s (readbackWords n rb s).2 := by
  induction n generalizing rb s with
  | zero => exact Steady.refl s
  | succ n ih =>
    unfold readbackWords
    split
    · exact (steady_readWord _ _ _ s).trans (ih _ _)
    · exact Steady.refl s

theorem steady_judgeRetirement (b : BarId) (s : State) : Steady s (judgeRetirement b s) := by
  rw [judgeRetirement_eq]
  split
  · exact { Steady.refl s with }
  · exact Steady.trans (t := judgedState b s) { Steady.refl s with } (steady_evaluateStarve _)

theorem steady_judgeRetirements (bs : List BarId) (s : State) : Steady s (judgeRetirements bs s) := by
  induction bs generalizing s with
  | nil => exact Steady.refl s
  | cons b bs ih => exact (steady_judgeRetirement b s).trans (ih _)

theorem steady_storePageEnd (bars : Vector Bool 4) (s : State) : Steady s (storePageEnd bars s) :=
  (steady_judgeRetirements _ s).trans ((steady_refreshCursors _).trans (steady_evaluateStarve _))

theorem steady_takeStripe (b : BarId) (page index : Nat) (s : State) : Steady s (takeStripe b page index s) := by
  unfold takeStripe
  split
  · exact (steady_updateBar s b _).trans (steady_evaluateStarve _)
  · exact Steady.refl s

theorem steady_noteUnderrun (b : BarId) (page line : Nat) (s : State) : Steady s (noteUnderrun b page line s) := by
  have h := steady_updatePage s page (f := fun p => { p with flags := { p.flags with underrun := true } }) fun _ => rfl
  exact { h with }

theorem steady_judgeChangeover (b : BarId) (s : State) : Steady s (judgeChangeover b s) := by
  unfold judgeChangeover
  split
  · exact Steady.refl s
  · split
    · exact Steady.refl s
    · exact { Steady.refl s with }

theorem steady_judgeChangeovers (bs : List BarId) (s : State) : Steady s (judgeChangeovers bs s) := by
  induction bs generalizing s with
  | nil => exact Steady.refl s
  | cons b bs ih => exact (steady_judgeChangeover b s).trans (ih _)

theorem steady_reportDone (id : Nat) (s : State) : Steady s (reportDone id s) := by
  unfold reportDone
  split
  · exact { Steady.refl s with }
  · exact Steady.refl s

/-! ### Stripe pieces -/

theorem steady_storeRows (b : BarId) (pc : Piece) (s : State) : Steady s (storeRows b pc s) := by
  unfold storeRows
  split
  · exact Steady.refl s
  · exact { Steady.refl s with }

theorem steady_completeStripe (b : BarId) (pc : Piece) (s : State) : Steady s (completeStripe b pc s) := by
  unfold completeStripe
  refine Steady.trans ?_ ((steady_refreshCursors _).trans (steady_evaluateStarve _))
  refine Steady.trans ?_ (steady_updateBar _ b _)
  refine (steady_updateBar s b _).trans (steady_updatePage _ pc.page ?_)
  exact fun _ => rfl

theorem steady_storePiece (b : BarId) (pc : Piece) (R : Nat) (s : State) : Steady s (storePiece b pc R s).1 := by
  have hopen : Steady s (if pc.firstRow = 0 then openStripe b pc R s else s) := by
    split
    · exact { Steady.refl s with }
    · exact Steady.refl s
  have hstore := hopen.trans (steady_storeRows b pc _)
  unfold storePiece
  dsimp only
  generalize storeRows b pc (if pc.firstRow = 0 then openStripe b pc R s else s) = u at hstore
  split
  · split
    · exact hstore.trans (steady_completeStripe b pc u)
    · exact { hstore with }
  · exact { hstore with }

/-! ### Requests -/

theorem beginSending_busy (l : Link) : (beginSending l).busy = l.busy := by rw [beginSending_eq]

section
variable {P : State → Prop} {s : State} {judge : State → State × Answer}
  (hlink : ∀ l : Link, l.busy = s.link.busy → P { s with link := l })
include hlink

theorem rejectFrame_rule (reason : BadReason) (echo : Byte) : P (rejectFrame reason echo s) := by
  unfold rejectFrame
  dsimp only
  split
  · exact hlink _ (beginSending_busy _)
  · exact hlink _ rfl

variable (hjudge : s.link.busy = none → ∀ l : Link, l.busy = none → P (settled (judge { s with link := l })))
include hjudge

theorem completeFrame_rule (echo : Byte) : P (completeFrame echo judge s) := by
  unfold completeFrame admitFrame
  dsimp only
  split
  · split
    · exact hlink _ (beginSending_busy _)
    · rename_i hbusy
      have hnone : s.link.busy = none := by simpa using hbusy
      exact hjudge hnone _ hnone
  · exact hlink _ rfl

/-- A request changes the link without touching the request in progress, or finds none and is settled as judged
(R149). -/
theorem takeRequest_rule (code : Byte) (params : List Byte) : P (takeRequest code params judge s) := by
  unfold takeRequest
  split
  · exact hlink s.link rfl
  · split
    · exact completeFrame_rule hlink hjudge code
    · exact rejectFrame_rule hlink .length 0

theorem takeData_rule (body : List Byte) : P (takeData body judge s) := by
  unfold takeData
  split
  · exact hlink s.link rfl
  · split
    · exact completeFrame_rule hlink hjudge 0xFF
    · exact rejectFrame_rule hlink .length 0xFF

end

theorem steady_link (s : State) {l : Link} (h : l.busy = s.link.busy) : Steady s { s with link := l } :=
  ⟨rfl, rfl, fun _ _ hl => h ▸ hl⟩

/-- A judgement that changes neither view and begins no CLEAR HEAD FAULT. -/
structure QuietAnswer (s : State) (r : State × Answer) : Prop where
  schedule : r.1.schedule = s.schedule
  seats : r.1.seats = s.seats
  work : ∀ p stage, r.2 ≠ .working (.clearFault p stage)

theorem Steady.quiet_done {s t : State} (h : Steady s t) (st : Status) (fields : List Byte) :
    QuietAnswer s (t, .done st fields) := ⟨h.schedule, h.seats, by simp⟩

theorem quiet_done (s : State) (st : Status) (fields : List Byte) : QuietAnswer s (s, .done st fields) :=
  ⟨rfl, rfl, by simp⟩

theorem QuietAnswer.steady {s u : State} {r : State × Answer} (h : QuietAnswer u r)
    (hschedule : u.schedule = s.schedule) (hseats : u.seats = s.seats) : Steady s (settled r) := by
  obtain ⟨t, ⟨st, fields⟩ | w⟩ := r
  · exact ⟨h.schedule.trans hschedule, h.seats.trans hseats, fun _ _ hb => by
      simp [settled, finishWork, beginSending_busy] at hb⟩
  · exact ⟨h.schedule.trans hschedule, h.seats.trans hseats, fun p stage hb =>
      absurd (congrArg Answer.working (Option.some.inj hb)) (h.work p stage)⟩

theorem steady_takeRequest {judge : State → State × Answer} (hj : ∀ u, QuietAnswer u (judge u)) (code : Byte)
    (params : List Byte) (s : State) : Steady s (takeRequest code params judge s) :=
  takeRequest_rule (fun _ => steady_link s) (fun _ _ _ => (hj _).steady rfl rfl) code params

/-! ### Judgements -/

theorem quiet_judgeSetLinkRate (ps : List Byte) (s : State) : QuietAnswer s (judgeSetLinkRate ps s) := by
  unfold judgeSetLinkRate
  split
  · exact quiet_done s _ _
  · split
    · exact quiet_done s _ _
    · exact ⟨rfl, rfl, by simp [reply]⟩

theorem quiet_judgeSync (ps : List Byte) (s : State) : QuietAnswer s (judgeSync ps s) := by
  unfold judgeSync
  split <;> exact quiet_done s _ _

theorem quiet_judgeLoadStitchMask (ps : List Byte) (s : State) : QuietAnswer s (judgeLoadStitchMask ps s) := by
  unfold judgeLoadStitchMask
  split
  · exact quiet_done s _ _
  · split
    · exact quiet_done s _ _
    · split
      · exact quiet_done s _ _
      · exact ⟨rfl, rfl, by simp [reply]⟩

theorem quiet_installDefects (p : PortId) (ds : List Defect) (s : State) : QuietAnswer s (installDefects p ds s) := by
  unfold installDefects
  dsimp only
  split <;> exact ⟨rfl, rfl, by simp [reply]⟩

theorem quiet_judgeLoadDefectList (ps : List Byte) (s : State) : QuietAnswer s (judgeLoadDefectList ps s) := by
  unfold judgeLoadDefectList
  split
  · exact quiet_done s _ _
  · split
    · exact quiet_done s _ _
    · split
      · exact quiet_done s _ _
      · split
        · exact quiet_done s _ _
        · split
          · exact quiet_done s _ _
          · split
            · exact quiet_done s _ _
            · split
              · exact quiet_done s _ _
              · split
                · exact quiet_done s _ _
                · exact quiet_installDefects _ _ s

theorem quiet_judgeReadPosition (ps : List Byte) (s : State) : QuietAnswer s (judgeReadPosition ps s) := by
  unfold judgeReadPosition
  split <;> exact quiet_done s _ _

theorem quiet_judgePageStatus (ps : List Byte) (s : State) : QuietAnswer s (judgePageStatus ps s) := by
  unfold judgePageStatus
  repeat' split
  all_goals exact quiet_done s _ _

theorem quiet_judgeSetRingSizes (ps : List Byte) (s : State) : QuietAnswer s (judgeSetRingSizes ps s) := by
  unfold judgeSetRingSizes
  split
  · exact quiet_done s _ _
  · split
    · exact quiet_done s _ _
    · exact ⟨rfl, rfl, by simp [reply]⟩

theorem quiet_judgeSetStarveThreshold (ps : List Byte) (s : State) :
    QuietAnswer s (judgeSetStarveThreshold ps s) := by
  unfold judgeSetStarveThreshold
  split
  · exact quiet_done s _ _
  · split
    · exact quiet_done s _ _
    · exact ((steady_updateBar s _ _).trans (steady_evaluateStarve _)).quiet_done _ _

theorem quiet_judgeStripeChecksum (ps : List Byte) (first : Nat) (s : State) :
    QuietAnswer s (judgeStripeChecksum ps first s) := by
  unfold judgeStripeChecksum
  split
  · exact quiet_done s _ _
  · split
    · exact quiet_done s _ _
    · split
      · exact quiet_done s _ _
      · split
        · exact quiet_done s _ _
        · exact ⟨(steady_readbackWords _ _ s).schedule, (steady_readbackWords _ _ s).seats, by simp⟩

theorem quiet_judgeReadMemoryErrors (ps : List Byte) (s : State) : QuietAnswer s (judgeReadMemoryErrors ps s) := by
  unfold judgeReadMemoryErrors
  split
  · exact quiet_done s _ _
  · split
    · exact quiet_done s _ _
    · split
      · exact quiet_done s _ _
      · exact ⟨rfl, rfl, by simp [reply]⟩

theorem quiet_judgeStripePiece (body : List Byte) (s : State) : QuietAnswer s (judgeStripePiece body s) := by
  unfold judgeStripePiece
  dsimp only
  split
  · exact quiet_done s _ _
  · split
    · exact quiet_done s _ _
    · split
      · exact quiet_done s _ _
      · split
        · exact quiet_done s _ _
        · split
          · exact quiet_done s _ _
          · split
            · exact quiet_done s _ _
            · split
              · exact quiet_done s _ _
              · split
                · exact quiet_done s _ _
                · split
                  · exact quiet_done s _ _
                  · exact (steady_storePiece _ _ _ s).quiet_done _ _

theorem quiet_judgeLoadWaveform (ps : List Byte) (s : State) : QuietAnswer s (judgeLoadWaveform ps s) := by
  unfold judgeLoadWaveform
  split
  · exact quiet_done s _ _
  · split
    · exact quiet_done s _ _
    · split
      · exact quiet_done s _ _
      · exact quiet_done s _ _
      · exact ⟨rfl, rfl, by simp [reply]⟩

theorem quiet_judgeSetDriveScale (ps : List Byte) (s : State) : QuietAnswer s (judgeSetDriveScale ps s) := by
  unfold judgeSetDriveScale
  split
  · exact quiet_done s _ _
  · split
    · exact quiet_done s _ _
    · exact ⟨rfl, rfl, by simp [reply]⟩

theorem quiet_judgeSetGuard (ps : List Byte) (s : State) : QuietAnswer s (judgeSetGuard ps s) := by
  unfold judgeSetGuard
  split
  · exact quiet_done s _ _
  · split
    · exact quiet_done s _ _
    · exact ⟨rfl, rfl, by simp [reply]⟩

theorem quiet_judgeReleaseGuard (ps : List Byte) (s : State) : QuietAnswer s (judgeReleaseGuard ps s) := by
  unfold judgeReleaseGuard
  split
  · exact quiet_done s _ _
  · split
    · exact quiet_done s _ _
    · split
      · exact quiet_done s _ _
      · exact ⟨rfl, rfl, by simp [reply]⟩

theorem quiet_judgeReadGuard (ps : List Byte) (s : State) : QuietAnswer s (judgeReadGuard ps s) := by
  unfold judgeReadGuard
  split <;> exact quiet_done s _ _

theorem quiet_judgeFetchReport (ps : List Byte) (s : State) : QuietAnswer s (judgeFetchReport ps s) := by
  unfold judgeFetchReport
  split
  · exact quiet_done s _ _
  · split
    · exact quiet_done s _ _
    · exact ⟨rfl, rfl, by simp [reply]⟩

/-! ### The link and the end of a readback -/

theorem advanceSwitch_busy (l : Link) : (advanceSwitch l).busy = l.busy := by
  unfold advanceSwitch
  split
  · rfl
  · split
    · rfl
    · split <;> rfl
  · split <;> rfl

theorem steady_execReplySent (s : State) : ∀ t, execReplySent s = .next t → Steady s t := by
  rintro _ ⟨⟩
  split
  · exact steady_link s ((beginSending_busy _).trans (advanceSwitch_busy _))
  · exact Steady.refl s

theorem steady_execTrialRevert (s : State) : ∀ t, execTrialRevert s = .next t → Steady s t := by
  rintro _ ⟨⟩
  split
  · exact { Steady.refl s with }
  · exact Steady.refl s

theorem steady_execBadFrame (kind : FrameKind) (length : BitVec 16) (rest : List Byte) (s : State) :
    ∀ t, execBadFrame kind length rest s = .next t → Steady s t := by
  rintro _ ⟨⟩
  split
  · exact Steady.refl s
  · split
    · exact rejectFrame_rule (P := Steady s) (fun _ => steady_link s) _ _
    · exact Steady.refl s
    · exact Steady.refl s

theorem finishWork_busy (st : Status) (fields : List Byte) (s : State) : (finishWork st fields s).link.busy = none := by
  rw [finishWork, State.updateLink_link, beginSending_busy]

theorem steady_finishWork (st : Status) (fields : List Byte) (s : State) : Steady s (finishWork st fields s) :=
  ⟨rfl, rfl, fun p stage h => by rw [finishWork_busy] at h; cases h⟩

theorem steady_upset (us : List Upset) (s : State) : Steady s (upset us s) := { Steady.refl s with }

theorem steady_execChecksumReadbackEnd (us : List Upset) (s : State) :
    ∀ t, execChecksumReadbackEnd us s = .next t → Steady s t := by
  rintro _ ⟨⟩
  split
  · exact (steady_upset us s).trans ((steady_readbackWords _ _ _).trans (steady_finishWork _ _ _))
  · exact steady_upset us s

/-! ### The commands that change neither view -/

/-- The commands that can change the schedule or the seats. -/
def stirs : Instr → Bool
  | .powerOnReset .. | .encoderChange .. | .triggerEdge .. | .assemblyEnd .. | .linkGrant _ | .loadCompletion ..
  | .loadNoAnswer _ | .playCompletion _ | .probeAnswer .. | .probeTimeout _ | .goOnline _ | .goOffline _ | .clear _
  | .drainComplete | .defineHead _ | .setMotion _ | .openPage _ | .abortPage .. | .releasePage _ | .headStatus _
  | .queryAnswer .. | .queryNoAnswer _ | .clearHeadFault _ | .resetAnswer .. | .resetTimeout _ => true
  | _ => false

/-- No command but those of `stirs` changes a view. -/
theorem steady_exec {c : Instr} (hc : stirs c = false) {s t : State} (h : exec c s = .next t) : Steady s t := by
  revert t
  change ∀ t, exec c s = .next t → Steady s t
  cases c with
  | lateAnswer port answer => rintro _ ⟨⟩; exact Steady.refl s
  | badFrame kind length rest => exact steady_execBadFrame kind length rest s
  | frameTimeout => rintro _ ⟨⟩; exact steady_link s rfl
  | unknownRequest code ps =>
    rintro _ ⟨⟩
    split
    · exact Steady.refl s
    · exact steady_takeRequest (fun u => quiet_done u _ _) code ps s
  | replySent => exact steady_execReplySent s
  | trialRevert => exact steady_execTrialRevert s
  | setLinkRate ps => rintro _ ⟨⟩; exact steady_takeRequest (quiet_judgeSetLinkRate ps) _ ps s
  | sync ps => rintro _ ⟨⟩; exact steady_takeRequest (quiet_judgeSync ps) _ ps s
  | loadStitchMask ps => rintro _ ⟨⟩; exact steady_takeRequest (quiet_judgeLoadStitchMask ps) _ ps s
  | loadDefectList ps => rintro _ ⟨⟩; exact steady_takeRequest (quiet_judgeLoadDefectList ps) _ ps s
  | readPosition ps => rintro _ ⟨⟩; exact steady_takeRequest (quiet_judgeReadPosition ps) _ ps s
  | pageStatus ps => rintro _ ⟨⟩; exact steady_takeRequest (quiet_judgePageStatus ps) _ ps s
  | setRingSizes ps => rintro _ ⟨⟩; exact steady_takeRequest (quiet_judgeSetRingSizes ps) _ ps s
  | setStarveThreshold ps => rintro _ ⟨⟩; exact steady_takeRequest (quiet_judgeSetStarveThreshold ps) _ ps s
  | stripeChecksum ps env =>
    rintro _ ⟨⟩
    exact (steady_upset _ s).trans (steady_takeRequest (quiet_judgeStripeChecksum ps env.fetched) _ ps _)
  | checksumReadbackEnd us => exact steady_execChecksumReadbackEnd us s
  | readMemoryErrors ps => rintro _ ⟨⟩; exact steady_takeRequest (quiet_judgeReadMemoryErrors ps) _ ps s
  | stripePiece body =>
    rintro _ ⟨⟩
    exact takeData_rule (fun _ => steady_link s) (fun _ _ _ => (quiet_judgeStripePiece body _).steady rfl rfl) body
  | loadWaveform ps => rintro _ ⟨⟩; exact steady_takeRequest (quiet_judgeLoadWaveform ps) _ ps s
  | setDriveScale ps => rintro _ ⟨⟩; exact steady_takeRequest (quiet_judgeSetDriveScale ps) _ ps s
  | setGuard ps => rintro _ ⟨⟩; exact steady_takeRequest (quiet_judgeSetGuard ps) _ ps s
  | releaseGuard ps => rintro _ ⟨⟩; exact steady_takeRequest (quiet_judgeReleaseGuard ps) _ ps s
  | readGuard ps => rintro _ ⟨⟩; exact steady_takeRequest (quiet_judgeReadGuard ps) _ ps s
  | fetchReport ps => rintro _ ⟨⟩; exact steady_takeRequest (quiet_judgeFetchReport ps) _ ps s
  | startMark kind =>
    rintro _ ⟨⟩
    split
    · exact steady_link s rfl
    · exact Steady.refl s
  | _ => cases hc

end Sys2Proof.Machine
end

section
/-! PROOF. The commands that keep the schedule: what happens between rows and ports alone moves no row, counts no line
and moves no web. -/

namespace Sys2Proof.Machine

/-! ### Rows and ports -/

theorem schedule_updateRow (s : State) (r : RowId) {f : Row → Row} (hf : ∀ row, (f row).place = row.place) :
    (s.updateRow r f).schedule = s.schedule := by
  simp only [State.schedule, State.updateRow_motion, State.updateRow_geometry, State.updateRow_pages,
    Schedule.mk.injEq, true_and]
  funext q
  rw [State.row_updateRow]
  split
  · subst_vars
    simp [Function.comp_def, hf]
  · rfl

theorem schedule_updatePort (s : State) (p : PortId) (f : Port → Port) :
    (s.updatePort p f).schedule = s.schedule := rfl

theorem schedule_clearLatch (r : RowId) (s : State) : (clearLatch r s).schedule = s.schedule := by
  unfold clearLatch
  split
  · rfl
  · exact schedule_updateRow s r fun _ => rfl

theorem schedule_faultPort (p : PortId) (cause : FaultCause) (s : State) :
    (faultPort p cause s).schedule = s.schedule := by
  unfold faultPort
  split
  · exact (schedule_clearLatch (rowOf p .B) _).trans (schedule_clearLatch (rowOf p .A) _)
  · rfl

theorem schedule_takeBrief (p : PortId) (st : BriefStatus) (s : State) : (takeBrief p st s).schedule = s.schedule := by
  unfold takeBrief
  dsimp only
  split <;> rfl

theorem schedule_startPlay (r : RowId) (codes : List Code) (s : State) :
    (startPlay r codes s).schedule = s.schedule := by
  unfold startPlay
  dsimp only
  split <;> exact schedule_updateRow s r fun _ => rfl

theorem schedule_carryOut (r : RowId) (c : Cursor) (o : LineOutcome) (s : State) :
    (carryOut r c o s).schedule = s.schedule := by
  cases o with
  | fired list => exact schedule_startPlay r list.codes s
  | dropped cause => exact schedule_clearLatch r s

/-! ### Loads -/

theorem schedule_fetchWords (n : Nat) (r : RowId) (s : State) : (fetchWords n r s).schedule = s.schedule := by
  unfold fetchWords
  split
  · split
    · rfl
    · refine (schedule_updateRow _ r ?_).trans (steady_readWords _ _ _ s).schedule
      exact fun _ => rfl
  · rfl

theorem schedule_openContext (r : RowId) (c : Cursor) (s : State) : (openContext r c s).schedule = s.schedule :=
  schedule_updateRow s r fun _ => rfl

theorem schedule_beginLoad (n : Nat) (r : RowId) (s : State) : (beginLoad n r s).schedule = s.schedule := by
  unfold beginLoad
  split
  · split
    · unfold beginLoadAt
      split
      · exact (schedule_fetchWords n r _).trans
          ((steady_takeStripe _ _ _ _).schedule.trans (schedule_openContext r _ s))
      · exact (steady_noteUnderrun _ _ _ _).schedule.trans (schedule_openContext r _ s)
    · rfl
  · rfl

theorem schedule_endAssembly (query : Bool) (r : RowId) (s : State) :
    (endAssembly query r s).schedule = s.schedule := by
  unfold endAssembly
  split
  · dsimp only
    split
    · rw [schedule_updatePort, schedule_updateRow]
      · exact schedule_fetchWords _ r s
      · exact fun _ => rfl
    · exact schedule_fetchWords _ r s
  · rfl

theorem schedule_grantShift (p : PortId) (l : Letter) (rest : List Requester) (s : State) :
    (grantShift p l rest s).schedule = s.schedule := by
  unfold grantShift
  split
  · exact schedule_updateRow s _ fun _ => rfl
  · rfl

theorem Row.complete_place (row : Row) (good : Bool) : (row.complete good).place = row.place := by
  unfold Row.complete
  split
  · split <;> rfl
  · rfl

theorem schedule_completeLoad (p : PortId) (h : LineHeader) (st : BriefStatus) (s : State) :
    (completeLoad p h st s).schedule = s.schedule := by
  have hrow : ((takeBrief p st s).updateRow (rowOf p h.letter) fun row => row.complete (echoMatches h st)).schedule =
      s.schedule :=
    (schedule_updateRow _ _ fun row => row.complete_place _).trans (schedule_takeBrief p st s)
  unfold completeLoad
  dsimp only
  split
  · exact (schedule_faultPort p _ _).trans (schedule_takeBrief p st s)
  · split
    · exact (schedule_faultPort p _ _).trans hrow
    · exact hrow

/-! ### Probes, queries and recovery -/

theorem schedule_recoverRow (n : Nat) (r : RowId) (s : State) : (recoverRow n r s).schedule = s.schedule :=
  (schedule_beginLoad n r _).trans (schedule_updateRow s r fun _ => rfl)

theorem schedule_recoverRows (n : Nat) (rs : List RowId) (s : State) : (recoverRows n rs s).schedule = s.schedule := by
  induction rs generalizing s with
  | nil => rfl
  | cons r rs ih => exact (ih _).trans (schedule_recoverRow n r s)

theorem schedule_recovered (env : Outside) (p : PortId) (answer : BriefStatus) (s : State) :
    (recovered env p answer s).schedule = s.schedule :=
  schedule_recoverRows env.fetched (portRows env p) (s.updatePort p _)

theorem schedule_endProbe_failed (env : Outside) (p : PortId) (w : Work) (cause : FaultCause)
    (answer : Option BriefStatus) (s : State) : (endProbe env p w (some cause) answer s).schedule = s.schedule := by
  cases w with
  | clearFault q stage => cases stage <;> rfl
  | _ => rfl

theorem schedule_endQuery (p : PortId) (answer : Option QueryReply) (s : State) :
    (endQuery p answer s).schedule = s.schedule := by
  unfold endQuery
  dsimp only
  split
  · split
    · exact schedule_faultPort p _ (freeLink p s)
    · rfl
  · exact schedule_faultPort p _ (freeLink p s)

/-! ### Requests -/

theorem settled_schedule (r : State × Answer) : (settled r).schedule = r.1.schedule := by
  unfold settled
  split <;> rfl

theorem schedule_takeRequest {judge : State → State × Answer} (hj : ∀ u, (judge u).1.schedule = u.schedule)
    (code : Byte) (params : List Byte) (s : State) : (takeRequest code params judge s).schedule = s.schedule :=
  takeRequest_rule (P := fun t => t.schedule = s.schedule) (fun _ _ => rfl)
    (fun _ _ _ => (settled_schedule _).trans (hj _)) code params

theorem schedule_judgeGoOnline (ps : List Byte) (s : State) : (judgeGoOnline ps s).1.schedule = s.schedule := by
  unfold judgeGoOnline
  split
  · rfl
  · split
    · rfl
    · split
      · rfl
      · split <;> rfl

theorem schedule_judgeHeadStatus (ps : List Byte) (s : State) : (judgeHeadStatus ps s).1.schedule = s.schedule := by
  unfold judgeHeadStatus
  split
  · rfl
  · split
    · rfl
    · split <;> rfl

theorem schedule_judgeClearHeadFault (ps : List Byte) (s : State) :
    (judgeClearHeadFault ps s).1.schedule = s.schedule := by
  unfold judgeClearHeadFault
  split
  · rfl
  · split
    · rfl
    · split
      · rfl
      · split <;> rfl

/-! ### All commands -/

/-- The commands that can change the schedule. -/
def reschedules : Instr → Bool
  | .powerOnReset .. | .encoderChange .. | .triggerEdge .. | .probeAnswer .. | .goOffline _ | .clear _
  | .drainComplete | .defineHead _ | .setMotion _ | .openPage _ | .abortPage .. | .releasePage _ => true
  | _ => false

/-- A command between rows and ports keeps the schedule. -/
theorem schedule_exec {c : Instr} (hc : reschedules c = false) {s t : State} (h : exec c s = .next t) :
    t.schedule = s.schedule := by
  cases hs : stirs c with
  | false => exact (steady_exec hs h).schedule
  | true =>
    cases c with
    | assemblyEnd port rowA rowB env =>
      obtain rfl := Host.Outcome.next.inj h
      have hA : (if rowA then endAssembly env.query (rowOf port .A) (upset env.upsets s)
          else upset env.upsets s).schedule = s.schedule := by
        split
        · exact schedule_endAssembly _ _ _
        · rfl
      split
      · exact (schedule_endAssembly _ _ _).trans hA
      · exact hA
    | linkGrant port =>
      obtain rfl := Host.Outcome.next.inj h
      split
      · exact schedule_grantShift _ _ _ s
      · rfl
      · rfl
    | loadCompletion port st =>
      obtain rfl := Host.Outcome.next.inj h
      split
      · exact schedule_completeLoad _ _ _ s
      · rfl
    | loadNoAnswer port =>
      obtain rfl := Host.Outcome.next.inj h
      split
      · exact schedule_faultPort port _ s
      · rfl
    | playCompletion row =>
      obtain rfl := Host.Outcome.next.inj h
      exact schedule_updateRow s row fun _ => rfl
    | probeTimeout port =>
      obtain rfl := Host.Outcome.next.inj h
      split
      · exact schedule_endProbe_failed _ port _ _ _ _
      · rfl
    | goOnline ps =>
      obtain rfl := Host.Outcome.next.inj h
      exact schedule_takeRequest (schedule_judgeGoOnline ps) _ ps s
    | headStatus ps =>
      obtain rfl := Host.Outcome.next.inj h
      exact schedule_takeRequest (schedule_judgeHeadStatus ps) _ ps s
    | clearHeadFault ps =>
      obtain rfl := Host.Outcome.next.inj h
      exact schedule_takeRequest (schedule_judgeClearHeadFault ps) _ ps s
    | queryAnswer port answer =>
      obtain rfl := Host.Outcome.next.inj h
      split
      · exact schedule_endQuery port _ s
      · rfl
    | queryNoAnswer port =>
      obtain rfl := Host.Outcome.next.inj h
      split
      · exact schedule_endQuery port _ s
      · rfl
    | resetAnswer port st =>
      obtain rfl := Host.Outcome.next.inj h
      split
      · exact schedule_takeBrief port st s
      · rfl
    | resetTimeout port =>
      obtain rfl := Host.Outcome.next.inj h
      split <;> rfl
    | powerOnReset | encoderChange | triggerEdge | probeAnswer | goOffline | clear | drainComplete | defineHead
    | setMotion | openPage | abortPage | releasePage => cases hc
    | _ => cases hs

end Sys2Proof.Machine
end

section
/-! PROOF. Every step keeps the Motion Unit in its ranges (O5). -/

namespace Sys2Proof.Machine

/-! ### What the ranges depend on -/

/-- The ranges stand where the Motion Unit stands and every page has a length that a page had before. -/
theorem motionOk_of_lengths {s t : State} (ok : MotionOk s) (hmotion : t.motion = s.motion)
    (hlength : ∀ p ∈ t.pages, ∃ q ∈ s.pages, p.length = q.length) : MotionOk t where
  pos_le_hwm := hmotion ▸ ok.pos_le_hwm
  hwm_le := hmotion ▸ ok.hwm_le
  trigger_le := hmotion ▸ ok.trigger_le
  lockout_le := hmotion ▸ ok.lockout_le
  errors_le := hmotion ▸ ok.errors_le
  pitch := hmotion ▸ ok.pitch
  delay := hmotion ▸ ok.delay
  gap := hmotion ▸ ok.gap
  lengths := fun p hp => by
    obtain ⟨q, hq, h⟩ := hlength p hp
    exact h ▸ ok.lengths q hq

/-- Records alike in a view that shows the length have lengths alike. -/
theorem lengths_of_map {β : Type} {f : Page → β} (hf : ∀ p q, f p = f q → p.length = q.length) {ps qs : List Page}
    (h : qs.map f = ps.map f) : ∀ p ∈ qs, ∃ q ∈ ps, p.length = q.length := fun p hp => by
  have hmem : f p ∈ ps.map f := h ▸ List.mem_map_of_mem hp
  obtain ⟨q, hq, he⟩ := List.mem_map.mp hmem
  exact ⟨q, hq, hf p q he.symm⟩

theorem motionOk_of_schedule {s t : State} (ok : MotionOk s) (h : t.schedule = s.schedule) : MotionOk t :=
  motionOk_of_lengths ok (congrArg Schedule.motion h)
    (lengths_of_map (f := Page.ledger) (fun p q he => show p.ledger.length = q.ledger.length by rw [he])
      (congrArg Schedule.pages h))

theorem motionOk_of_rowEvent {s t : State} (ok : MotionOk s) (h : RowEvent s t) : MotionOk t :=
  motionOk_of_lengths ok h.motion
    (lengths_of_map (f := Page.opening) (fun _ _ he => congrArg (fun o => o.2.1) he) h.opening)

theorem motionOk_of_same {s t : State} (ok : MotionOk s) (hmotion : t.motion = s.motion)
    (hpages : ∀ p ∈ t.pages, p ∈ s.pages) : MotionOk t :=
  motionOk_of_lengths ok hmotion fun p hp => ⟨p, hpages p hp, rfl⟩

/-! ### The encoder and the trigger -/

theorem motionOk_forwardTick {s : State} (ok : MotionOk s) : MotionOk (s.updateMotion Motion.forwardTick) := by
  have hpos := ok.pos_le_hwm
  have hlock := ok.lockout_le
  unfold State.updateMotion Motion.forwardTick
  split
  · exact { ok with pos_le_hwm := by dsimp only; omega }
  · split
    · exact { ok with
        pos_le_hwm := Nat.succ_le_succ hpos
        hwm_le := by dsimp only; omega
        trigger_le := Nat.le_succ_of_le ok.trigger_le
        lockout_le := by dsimp only; omega }
    · exact { ok with }

theorem bump_le {top n : Nat} (h : n ≤ top) : bump top n ≤ top := by
  unfold bump
  split <;> omega

theorem motionOk_passOn {s : State} (ok : MotionOk s) (env : Outside) (c : Option TickClass) :
    MotionOk (passOn env c s) := by
  unfold passOn
  split
  · split
    · unfold forwardTick
      dsimp only
      split
      · exact motionOk_of_rowEvent (motionOk_forwardTick ok) (rowEvent_arriveAll _ _ _ _)
      · exact motionOk_forwardTick ok
    · exact { ok with pos_le_hwm := (Nat.sub_le _ 1).trans ok.pos_le_hwm }
    · exact { ok with errors_le := bump_le ok.errors_le }
    · exact ok
  · exact ok

theorem lockoutLength_le {n pitch gap : Nat} (hn : n ≤ 32768) (hpitch : pitch ≤ 4294967295) (hgap : gap ≤ 16777215) :
    lockoutLength n pitch gap ≤ 2164260863 := by
  have hmul : n * pitch ≤ 32768 * 4294967295 := Nat.mul_le_mul hn hpitch
  unfold lockoutLength
  omega

theorem mem_of_oldestOpen {ps : List Page} {p : Page} (h : oldestOpen ps = some p) : p ∈ ps ∧ p.state = .opened :=
  ⟨List.mem_of_find?_eq_some h, by simpa using List.find?_some h⟩

theorem motionOk_judgeTrigger {s : State} (ok : MotionOk s) (env : Outside) : MotionOk (judgeTrigger env s) := by
  unfold judgeTrigger
  dsimp only
  split
  · exact { ok with }
  · split
    · exact { ok with }
    · split
      · exact { ok with
          trigger_le := Nat.le_refl _
          lockout_le := Nat.add_le_add_left (ok.gap.2.trans (by decide)) _ }
      · rename_i p hp
        refine motionOk_of_rowEvent ?_ (rowEvent_startPage env p _ _ _)
        exact { ok with
          trigger_le := Nat.le_refl _
          lockout_le := Nat.add_le_add_left
            (lockoutLength_le (ok.lengths p (mem_of_oldestOpen hp).1).2 ok.pitch.2 ok.gap.2) _ }

/-! ### SET MOTION -/

theorem leValue_lt (bs : List Byte) : leValue bs < 256 ^ bs.length := by
  induction bs with
  | nil => simp [leValue]
  | cons b bs ih =>
    have hb := b.isLt
    rw [leValue, List.length_cons, Nat.pow_succ]
    omega

theorem fieldAt_lt (ps : List Byte) (pos n : Nat) : fieldAt ps pos n < 256 ^ n :=
  (leValue_lt _).trans_le (Nat.pow_le_pow_right (by decide) (List.length_take_le n _))

/-- A block that passes the checks of R27 gives settings within their ranges. -/
theorem motionFailure_none {ps : List Byte} (h : motionFailure ps = none) :
    (65536 ≤ fieldAt ps 0 4 ∧ fieldAt ps 0 4 ≤ 4294967295) ∧ (1 ≤ fieldAt ps 4 4 ∧ fieldAt ps 4 4 ≤ 16777215) ∧
      (1 ≤ fieldAt ps 8 4 ∧ fieldAt ps 8 4 ≤ 16777215) := by
  have hpitch := fieldAt_lt ps 0 4
  simp only [motionFailure, check_eq_none] at h
  omega

theorem motionOk_judgeSetMotion {s : State} (ok : MotionOk s) (ps : List Byte) : MotionOk (judgeSetMotion ps s).1 := by
  unfold judgeSetMotion
  split
  · exact ok
  · split
    · exact ok
    · rename_i hpass
      obtain ⟨hpitch, hdelay, hgap⟩ := motionFailure_none hpass
      exact { ok with pitch := hpitch, delay := hdelay, gap := hgap }

/-! ### Pages and operating states -/

theorem motionOk_judgeOpenPage {s : State} (ok : MotionOk s) (ps : List Byte) : MotionOk (judgeOpenPage ps s).1 := by
  unfold judgeOpenPage
  split
  · exact ok
  · split
    · exact ok
    · split
      · exact ok
      · rename_i hpass _
        simp only [openFailure, check_eq_none] at hpass
        refine motionOk_of_rowEvent ?_ (rowEvent_refreshCursors _)
        exact { ok with
          lengths := List.forall_mem_append.mpr ⟨ok.lengths, by simp only [List.forall_mem_singleton, newPage]; omega⟩ }

theorem motionOk_judgeAbortPage {s : State} (ok : MotionOk s) (ps : List Byte) (env : Outside) :
    MotionOk (judgeAbortPage ps env s).1 := by
  unfold judgeAbortPage
  split
  · exact ok
  · split
    · exact ok
    · split
      · exact ok
      · split
        · exact ok
        · rw [reply_fst]
          exact motionOk_of_rowEvent ok (rowEvent_abortPage env _ s)

theorem motionOk_removePage {s : State} (ok : MotionOk s) (id : Nat) : MotionOk (removePage id s) := by
  refine motionOk_of_rowEvent ?_ (rowEvent_refreshCursors _)
  exact motionOk_of_same ok rfl fun p hp => List.mem_of_mem_filter hp

theorem motionOk_judgeReleasePage {s : State} (ok : MotionOk s) (ps : List Byte) :
    MotionOk (judgeReleasePage ps s).1 := by
  unfold judgeReleasePage
  split
  · exact ok
  · split
    · exact ok
    · split
      · exact ok
      · split
        · exact ok
        · exact motionOk_removePage ok _

theorem teardown_motion (s : State) : (teardown s).motion = s.motion := by
  unfold teardown
  dsimp only
  split <;> rfl

theorem motionOk_beginDraining {s : State} (ok : MotionOk s) (clear : Bool) : MotionOk (beginDraining clear s).1 :=
  motionOk_of_same ok (teardown_motion _) (by simp [beginDraining, teardown])

theorem motionOk_judgeGoOffline {s : State} (ok : MotionOk s) (ps : List Byte) :
    MotionOk (judgeGoOffline ps s).1 := by
  unfold judgeGoOffline
  split
  · exact ok
  · split
    · exact ok
    · exact motionOk_beginDraining ok false

theorem motionOk_judgeClear {s : State} (ok : MotionOk s) (ps : List Byte) : MotionOk (judgeClear ps s).1 := by
  unfold judgeClear
  split
  · exact ok
  · split
    · exact ok
    · split
      · exact motionOk_beginDraining ok true
      · exact { ok with }

theorem motionOk_judgeDefineHead {s : State} (ok : MotionOk s) (ps : List Byte) :
    MotionOk (judgeDefineHead ps s).1 := by
  unfold judgeDefineHead
  split
  · exact ok
  · split
    · exact ok
    · split
      · exact ok
      · exact ok
      · dsimp only [reply]
        split <;> exact { ok with }

theorem motionOk_goOnlineNext {s : State} (ok : MotionOk s) (p : PortId) : MotionOk (goOnlineNext p s) := by
  unfold goOnlineNext
  dsimp only
  split
  · exact { ok with
      pos_le_hwm := Nat.le_refl 0
      hwm_le := Nat.zero_le _
      trigger_le := Nat.le_refl 0
      lockout_le := Nat.zero_le _
      errors_le := Nat.zero_le _ }
  · exact { ok with }

theorem motionOk_endProbe {s : State} (ok : MotionOk s) (env : Outside) (p : PortId) (w : Work)
    (cause : Option FaultCause) (answer : Option BriefStatus) : MotionOk (endProbe env p w cause answer s) := by
  unfold endProbe
  split
  · exact { ok with }
  · exact motionOk_goOnlineNext ok p
  · exact { ok with }
  · exact motionOk_of_schedule ok (schedule_recovered env p _ s)
  · exact ok

/-! ### All commands -/

theorem motionOk_takeRequest {judge : State → State × Answer} (hj : ∀ u, MotionOk u → MotionOk (judge u).1) {s : State}
    (ok : MotionOk s) (code : Byte) (params : List Byte) : MotionOk (takeRequest code params judge s) :=
  takeRequest_keeps (fun _ _ h => { h with }) ok (fun _ => hj _ { ok with }) code params

theorem exec_motionOk {c : Instr} {s t : State} (ok : MotionOk s) (h : exec c s = .next t) : MotionOk t := by
  cases hc : reschedules c with
  | false => exact motionOk_of_schedule ok (schedule_exec hc h)
  | true =>
    cases c with
    | powerOnReset a b g =>
      obtain rfl := Host.Outcome.next.inj h
      constructor <;> simp [State.powerOn]
    | encoderChange a b env =>
      obtain rfl := Host.Outcome.next.inj h
      refine motionOk_passOn ?_ env _
      exact { ok with }
    | triggerEdge level env =>
      obtain rfl := Host.Outcome.next.inj h
      split
      · refine motionOk_judgeTrigger ?_ env
        exact { ok with }
      · exact { ok with }
    | probeAnswer port st env =>
      obtain rfl := Host.Outcome.next.inj h
      split
      · split
        · refine motionOk_endProbe ?_ env port _ _ _
          exact motionOk_of_schedule ok (schedule_takeBrief port st (upset env.upsets s))
        · exact { ok with }
      · exact { ok with }
    | drainComplete =>
      obtain rfl := Host.Outcome.next.inj h
      split
      · split
        · rename_i clear _ _ _
          cases clear <;> exact { ok with }
        · exact ok
      · exact ok
    | goOffline ps =>
      obtain rfl := Host.Outcome.next.inj h
      exact motionOk_takeRequest (fun _ ok => motionOk_judgeGoOffline ok ps) ok _ ps
    | clear ps =>
      obtain rfl := Host.Outcome.next.inj h
      exact motionOk_takeRequest (fun _ ok => motionOk_judgeClear ok ps) ok _ ps
    | defineHead ps =>
      obtain rfl := Host.Outcome.next.inj h
      exact motionOk_takeRequest (fun _ ok => motionOk_judgeDefineHead ok ps) ok _ ps
    | setMotion ps =>
      obtain rfl := Host.Outcome.next.inj h
      exact motionOk_takeRequest (fun _ ok => motionOk_judgeSetMotion ok ps) ok _ ps
    | openPage ps =>
      obtain rfl := Host.Outcome.next.inj h
      exact motionOk_takeRequest (fun _ ok => motionOk_judgeOpenPage ok ps) ok _ ps
    | abortPage ps env =>
      obtain rfl := Host.Outcome.next.inj h
      refine motionOk_takeRequest (fun _ ok => motionOk_judgeAbortPage ok ps env) ?_ _ ps
      exact { ok with }
    | releasePage ps =>
      obtain rfl := Host.Outcome.next.inj h
      exact motionOk_takeRequest (fun _ ok => motionOk_judgeReleasePage ok ps) ok _ ps
    | _ => cases hc

/-- A condition that does not read the queue of commands, and that every command keeps, every step keeps. -/
theorem step_keeps {P : State → Prop} (hrest : ∀ s rest, P s → P { s with pending := rest })
    (hexec : ∀ c s t, P s → exec c s = .next t → P t) {s t : State} (hs : P s) (h : step s = .next t) : P t := by
  unfold step at h
  split at h
  · obtain rfl := Host.Outcome.next.inj h
    exact hs
  · exact hexec _ _ t (hrest s _ hs) h

/-- Settles O5. -/
theorem stepsKeepMotionOk : Obligations.StepsKeepMotionOk := fun _ _ ok h =>
  step_keeps (fun _ _ ok => { ok with }) (fun _ _ _ ok h => exec_motionOk ok h) ok h

end Sys2Proof.Machine
end

section
/-! PROOF. Rows and ports (R76, R77, R83, R95, R126): the conditions of `RowsOk` that concern one port with its two
rows, what a change of one of them must show, and the events of a load. -/

namespace Sys2Proof.Machine

/-! ### One port with its two rows -/

/-- `RowOk`, but for what a bare row is still owed: the load of its line (R77), a count of transfer errors below the
limit (R96). -/
structure SeatOk (p : Port) (op : OpState) (l : Letter) (bare : Prop) (row : Row) : Prop where
  fire_iff : row.fire.isSome = row.cursor.isSome
  tagged : ∀ k, row.latch.line? = some k → row.cursor.map (·.line) = some k
  unready_empty : p.state ≠ .ready → row.latch = .empty
  loaded : ¬ bare → op = .online → p.state = .ready → row.cursor.isSome = true → row.latch ≠ .empty
  offline_idle : op ≠ .online → row.cursor = none ∧ row.latch = .empty
  errors_le : row.errors ≤ 16
  errors_limit : ¬ bare → row.errors = 16 → p.state ≠ .ready
  waits_iff : row.latch.waits = true ↔ Requester.shift l ∈ p.waiting
  shifts_iff : ∀ k, row.latch.shifting? = some k → carriedLoad p.link = some (l, BitVec.ofNat 8 k)

/-- A port with its two rows, some of them bare; `defined` where the port has a head. -/
structure BenchOk (op : OpState) (defined : Bool) (p : Port) (rows : Letter → Option Row) (bare : Letter → Prop) :
    Prop where
  served : defined = true → p.state ≠ .off
  seats : ∀ l row, rows l = some row → SeatOk p op l (bare l) row
  carried : ∀ l tag, carriedLoad p.link = some (l, tag) → ∃ row k, rows l = some row ∧ row.latch.shifting? = some k
  waiting : ∀ l, Requester.shift l ∈ p.waiting → (rows l).isSome = true
  once : (p.waiting.filter fun q => q ≠ .query).Nodup

/-- Every port with its rows. -/
def SeatsOk (bare : RowId → Prop) (s : State) : Prop :=
  ∀ p : PortId, BenchOk s.control.op (entry s.geometry.heads p).isSome (s.port p) (fun l => s.row (rowOf p l))
    fun l => bare (rowOf p l)

/-- No row is bare. -/
def noRow : RowId → Prop := fun _ => False

theorem seatOk_iff {p : Port} {op : OpState} {l : Letter} {row : Row} :
    SeatOk p op l False row ↔ RowOk p op l row :=
  ⟨fun h => { h with loaded := h.loaded not_false, errors_limit := h.errors_limit not_false },
    fun h => { h with loaded := fun _ => h.loaded, errors_limit := fun _ => h.errors_limit }⟩

theorem SeatsOk.row {bare : RowId → Prop} {s : State} (ok : SeatsOk bare s) {r : RowId} {row : Row}
    (h : s.row r = some row) : SeatOk (s.port (portOf r)) s.control.op (letterOf r) (bare r) row := by
  have hrow := (ok (portOf r)).seats (letterOf r) row (by rw [rowOf_letterOf, h])
  rwa [rowOf_letterOf] at hrow

/-- The conditions of `RowsOk` are those of the seats, the working rows' and the CLEAR HEAD FAULT's. -/
theorem rowsOk_iff {s : State} : RowsOk s ↔ SeatsOk noRow s ∧
    (∀ (r : RowId) (row : Row) (c : Cursor), s.row r = some row → row.cursor = some c →
      ∃ p ∈ s.pages, ∃ start, CursorOk s r row c p start) ∧
    ∀ (p : PortId) (stage : ClearStage), s.link.busy = some (.clearFault p stage) → (s.port p).state = .fault := by
  refine ⟨fun h => ⟨fun p => ?_, h.working, h.clearing⟩, fun ⟨ok, hworking, hclearing⟩ => ?_⟩
  · exact
      { served := h.served p
        seats := fun l row hrow => seatOk_iff.mpr (by simpa using h.rows _ row hrow)
        carried := h.carried p
        waiting := h.waiting p
        once := h.waiting_once p }
  · exact
      { working := hworking
        served := fun p => (ok p).served
        rows := fun r row hrow => seatOk_iff.mp (ok.row hrow)
        carried := fun p => (ok p).carried
        waiting := fun p => (ok p).waiting
        waiting_once := fun p => (ok p).once
        clearing := hclearing }

/-! ### What a change must show -/

theorem SeatOk.weaken {p : Port} {op : OpState} {l : Letter} {bare bare' : Prop} {row : Row}
    (h : SeatOk p op l bare row) (hb : bare → bare') : SeatOk p op l bare' row :=
  { h with
    loaded := fun hn => h.loaded fun hx => hn (hb hx)
    errors_limit := fun hn => h.errors_limit fun hx => hn (hb hx) }

/-- A row keeps its seat where its port keeps its state and does to the row's own shift what the latch says. -/
theorem SeatOk.port {p p' : Port} {op : OpState} {l : Letter} {bare : Prop} {row : Row} (h : SeatOk p op l bare row)
    (hstate : p'.state = p.state) (hwaits : Requester.shift l ∈ p'.waiting ↔ Requester.shift l ∈ p.waiting)
    (hshifts : ∀ k, row.latch.shifting? = some k → carriedLoad p'.link = carriedLoad p.link) :
    SeatOk p' op l bare row :=
  { h with
    unready_empty := hstate ▸ h.unready_empty
    loaded := hstate ▸ h.loaded
    errors_limit := hstate ▸ h.errors_limit
    waits_iff := h.waits_iff.trans hwaits.symm
    shifts_iff := fun k hk => (hshifts k hk).trans (h.shifts_iff k hk) }

section
variable {op : OpState} {defined : Bool} {p p' : Port} {rows rows' : Letter → Option Row} {bare bare' : Letter → Prop}

/-- A change of one row, and of its port. -/
theorem BenchOk.change (h : BenchOk op defined p rows bare) {l : Letter} {row' : Row}
    (hsame : rows' l = some row') (hothers : ∀ m, m ≠ l → rows' m = rows m)
    (hseat : SeatOk p' op l (bare' l) row')
    (hother : ∀ m row, m ≠ l → rows m = some row → SeatOk p op m (bare m) row → SeatOk p' op m (bare' m) row)
    (hserved : p.state ≠ .off → p'.state ≠ .off)
    (hcarried : ∀ m tag, carriedLoad p'.link = some (m, tag) →
      m = l ∧ (∃ k, row'.latch.shifting? = some k) ∨ m ≠ l ∧ carriedLoad p.link = some (m, tag))
    (hwaiting : ∀ m, Requester.shift m ∈ p'.waiting → m = l ∨ Requester.shift m ∈ p.waiting)
    (honce : (p'.waiting.filter fun q => q ≠ .query).Nodup) : BenchOk op defined p' rows' bare' where
  served := fun hd => hserved (h.served hd)
  seats := fun m row hrow => by
    by_cases hm : m = l
    · subst hm
      obtain rfl := Option.some.inj (hsame.symm.trans hrow)
      exact hseat
    · have hold := (hothers m hm).symm.trans hrow
      exact hother m row hm hold (h.seats m row hold)
  carried := fun m tag hlink => by
    rcases hcarried m tag hlink with ⟨rfl, k, hk⟩ | ⟨hm, hold⟩
    · exact ⟨row', k, hsame, hk⟩
    · obtain ⟨row, k, hrow, hk⟩ := h.carried m tag hold
      exact ⟨row, k, (hothers m hm).trans hrow, hk⟩
  waiting := fun m hmem => by
    by_cases hm : m = l
    · rw [hm, hsame, Option.isSome_some]
    · rw [hothers m hm]
      exact h.waiting m ((hwaiting m hmem).resolve_left hm)
  once := honce

/-- A change of one row alone, its shift where it was. -/
theorem BenchOk.change_row (h : BenchOk op defined p rows bare) {l : Letter} {row row' : Row} (hrow : rows l = some row)
    (hsame : rows' l = some row') (hothers : ∀ m, m ≠ l → rows' m = rows m) (hseat : SeatOk p op l (bare' l) row')
    (hbare : ∀ m, m ≠ l → bare m → bare' m) (hshift : row'.latch.shifting? = row.latch.shifting?) :
    BenchOk op defined p rows' bare' := by
  refine h.change hsame hothers hseat (fun m _ hm _ hs => hs.weaken (hbare m hm)) id (fun m tag hlink => ?_)
    (fun _ => .inr) h.once
  by_cases hm : m = l
  · subst hm
    obtain ⟨x, k, hx, hk⟩ := h.carried m tag hlink
    obtain rfl := Option.some.inj (hrow.symm.trans hx)
    exact .inl ⟨rfl, k, hshift.trans hk⟩
  · exact .inr ⟨hm, hlink⟩

/-- A change of the port alone. -/
theorem BenchOk.change_port (h : BenchOk op defined p rows bare) (hserved : p'.state ≠ .off)
    (hseats : ∀ l row, rows l = some row → SeatOk p op l (bare l) row → SeatOk p' op l (bare' l) row)
    (hcarried : carriedLoad p'.link = carriedLoad p.link)
    (hwaiting : p'.waiting.filter (fun q => q ≠ .query) = p.waiting.filter fun q => q ≠ .query) :
    BenchOk op defined p' rows bare' where
  served := fun _ => hserved
  seats := fun l row hrow => hseats l row hrow (h.seats l row hrow)
  carried := fun l tag hlink => h.carried l tag (hcarried ▸ hlink)
  waiting := fun l hmem => by
    refine h.waiting l ?_
    have : Requester.shift l ∈ p'.waiting.filter fun q => q ≠ .query := List.mem_filter.mpr ⟨hmem, by simp⟩
    rw [hwaiting] at this
    exact List.mem_of_mem_filter this
  once := hwaiting ▸ h.once

/-- A link that carries no load, and then another or none. -/
theorem BenchOk.relink (h : BenchOk op defined p rows bare) {link : Option Exchange}
    (hold : carriedLoad p.link = none) (hnew : carriedLoad link = none) :
    BenchOk op defined { p with link := link } rows bare where
  served := h.served
  seats := fun l row hrow => (h.seats l row hrow).port rfl Iff.rfl fun _ _ => hnew.trans hold.symm
  carried := fun l tag hlink => absurd (hnew.symm.trans hlink) (by simp)
  waiting := h.waiting
  once := h.once

end

/-! ### Changes of the state -/

section
variable {bare bare' : RowId → Prop} {s t : State}

theorem SeatsOk.weaken (ok : SeatsOk bare s) (h : ∀ r, bare r → bare' r) : SeatsOk bare' s := fun p =>
  { ok p with seats := fun l row hrow => ((ok p).seats l row hrow).weaken (h _) }

theorem seatsOk_of_seats (ok : SeatsOk bare s) (h : t.seats = s.seats) : SeatsOk bare t := by
  have hop : t.control.op = s.control.op := congrArg Seats.op h
  have hheads : t.geometry.heads = s.geometry.heads := congrArg Seats.heads h
  have hrows : t.rows = s.rows := congrArg Seats.rows h
  have hports : t.ports = s.ports := congrArg Seats.ports h
  intro p
  rw [hop, hheads, State.port_congr hports]
  simpa only [State.row_congr hrows] using ok p

/-- A change at one port. -/
theorem SeatsOk.at_port (ok : SeatsOk bare s) (p : PortId) (hop : t.control.op = s.control.op)
    (hheads : t.geometry.heads = s.geometry.heads) (hports : ∀ x, x ≠ p → t.port x = s.port x)
    (hrows : ∀ r, portOf r ≠ p → t.row r = s.row r) (hbare : ∀ r, portOf r ≠ p → bare r → bare' r)
    (h : BenchOk s.control.op (entry s.geometry.heads p).isSome (t.port p) (fun l => t.row (rowOf p l))
      fun l => bare' (rowOf p l)) : SeatsOk bare' t := by
  intro x
  rw [hop, hheads]
  by_cases hx : x = p
  · subst hx
    exact h
  · have hne : ∀ l, portOf (rowOf x l) ≠ p := fun l => by rwa [portOf_rowOf]
    simp only [hports x hx, hrows _ (hne _)]
    exact { ok x with seats := fun l row hrow => ((ok x).seats l row hrow).weaken (hbare _ (hne l)) }

theorem SeatsOk.updatePort (ok : SeatsOk bare s) (p : PortId) (f : Port → Port)
    (h : BenchOk s.control.op (entry s.geometry.heads p).isSome (f (s.port p)) (fun l => s.row (rowOf p l))
      fun l => bare' (rowOf p l))
    (hbare : ∀ r, portOf r ≠ p → bare r → bare' r) : SeatsOk bare' (s.updatePort p f) := by
  refine ok.at_port p rfl rfl (fun x hx => ?_) (fun _ _ => rfl) hbare ?_
  · rw [State.port_updatePort, if_neg (Ne.symm hx)]
  · rw [State.port_updatePort_same]
    exact h

theorem rowOf_eq_iff {p : PortId} {l : Letter} {r : RowId} : rowOf p l = r ↔ portOf r = p ∧ letterOf r = l :=
  ⟨fun h => by simp [← h], fun ⟨hp, hl⟩ => by rw [← hp, ← hl, rowOf_letterOf]⟩

/-- A change of one row alone. -/
theorem SeatsOk.updateRow (ok : SeatsOk bare s) {r : RowId} {f : Row → Row} (hbare : ∀ q, q ≠ r → bare q → bare' q)
    (h : ∀ row, s.row r = some row → SeatOk (s.port (portOf r)) s.control.op (letterOf r) (bare r) row →
      SeatOk (s.port (portOf r)) s.control.op (letterOf r) (bare' r) (f row) ∧
        (f row).latch.shifting? = row.latch.shifting?) : SeatsOk bare' (s.updateRow r f) := by
  have hne : ∀ q, portOf q ≠ portOf r → q ≠ r := fun q hq he => hq (he ▸ rfl)
  refine ok.at_port (portOf r) rfl rfl (fun _ _ => rfl)
    (fun q hq => State.row_updateRow_of_ne s f (hne q hq).symm) (fun q hq => hbare q (hne q hq)) ?_
  have hbench := ok (portOf r)
  have hsame : rowOf (portOf r) (letterOf r) = r := rowOf_letterOf r
  have hothers : ∀ m, m ≠ letterOf r → rowOf (portOf r) m ≠ r := fun m hm he => hm (rowOf_eq_iff.mp he).2.symm
  cases hrow : s.row r with
  | none =>
    have hrows : (fun l => (s.updateRow r f).row (rowOf (portOf r) l)) = fun l => s.row (rowOf (portOf r) l) := by
      funext l
      rw [State.row_updateRow]
      split
      · rename_i he
        rw [← he, hrow, Option.map_none]
      · rfl
    rw [hrows]
    refine { hbench with seats := fun l row hl => (hbench.seats l row hl).weaken (hbare _ ?_) }
    rintro he
    rw [he, hrow] at hl
    cases hl
  | some row =>
    obtain ⟨hseat, hshift⟩ := h row hrow (ok.row hrow)
    refine hbench.change_row (l := letterOf r) (row := row) (row' := f row) ?_ ?_ ?_ ?_ ?_ hshift
    · rw [hsame, hrow]
    · rw [hsame, State.row_updateRow_same, hrow, Option.map_some]
    · exact fun m hm => State.row_updateRow_of_ne s f (hothers m hm).symm
    · rwa [hsame]
    · exact fun m hm => hbare _ (hothers m hm)

/-- A bare row that lacks nothing is no longer bare. -/
theorem SeatsOk.dress {r : RowId} (ok : SeatsOk (fun q => q = r ∨ bare q) s)
    (hloaded : ∀ row, s.row r = some row → s.control.op = .online → (s.port (portOf r)).state = .ready →
      row.cursor.isSome = true → row.latch ≠ .empty)
    (hlimit : ∀ row, s.row r = some row → row.errors = 16 → (s.port (portOf r)).state ≠ .ready) : SeatsOk bare s := by
  intro p
  refine { ok p with seats := fun l row hrow => ?_ }
  have hseat := (ok p).seats l row hrow
  by_cases h : rowOf p l = r
  · obtain ⟨rfl, rfl⟩ := rowOf_eq_iff.mp h
    rw [rowOf_letterOf] at hrow
    exact { hseat with loaded := fun _ => hloaded row hrow, errors_limit := fun _ => hlimit row hrow }
  · exact hseat.weaken fun hb => hb.resolve_left h

end

end Sys2Proof.Machine
end

section
/-! PROOF. Rows and ports: what the events at a row keep of their agreement (R80, R84, R86, R93 to R96, R99). -/

namespace Sys2Proof.Machine

/-! ### Emptying a latch -/

/-- An empty latch on a row whose count of transfer errors is below the limit, or whose port is not READY. -/
def Vacant (r : RowId) (s : State) : Prop :=
  ∀ row, s.row r = some row → row.latch = .empty ∧ (row.errors = 16 → (s.port (portOf r)).state ≠ .ready)

theorem releaseLink_state (l : Letter) (latch : Latch) (p : Port) : (releaseLink l latch p).state = p.state := by
  unfold releaseLink
  split <;> rfl

theorem mem_releaseLink_waiting {l m : Letter} {latch : Latch} {p : Port}
    (hwaits : latch.waits = true ↔ Requester.shift l ∈ p.waiting) :
    Requester.shift m ∈ (releaseLink l latch p).waiting ↔ m ≠ l ∧ Requester.shift m ∈ p.waiting := by
  have hnot : latch.waits = false → (Requester.shift m ∈ p.waiting ↔ m ≠ l ∧ Requester.shift m ∈ p.waiting) := by
    intro h
    refine ⟨fun hm => ⟨?_, hm⟩, And.right⟩
    rintro rfl
    rw [hwaits.mpr hm] at h
    cases h
  unfold releaseLink
  split
  · simp [and_comm]
  · exact hnot rfl
  · exact hnot rfl
  · exact hnot rfl
  · exact hnot rfl
  · exact hnot rfl

theorem releaseLink_link {l : Letter} {latch : Latch} {p : Port} :
    (releaseLink l latch p).link = if latch.shifting?.isSome then none else p.link := by
  unfold releaseLink
  split <;> rfl

theorem releaseLink_once {l : Letter} {latch : Latch} {p : Port}
    (h : (p.waiting.filter fun q => q ≠ .query).Nodup) :
    ((releaseLink l latch p).waiting.filter fun q => q ≠ .query).Nodup := by
  unfold releaseLink
  split
  · rw [List.filter_filter, List.filter_congr fun q _ => Bool.and_comm _ _, ← List.filter_filter]
    exact h.filter _
  · exact h
  · exact h
  · exact h
  · exact h
  · exact h

theorem SeatOk.emptied {p p' : Port} {op : OpState} {l : Letter} {bare : Prop} {row row' : Row}
    (h : SeatOk p op l bare row) (hwaiting : Requester.shift l ∉ p'.waiting)
    (hrow : row'.latch = .empty ∧ row'.cursor = row.cursor ∧ row'.fire = row.fire ∧ row'.errors = row.errors) :
    SeatOk p' op l True row' := by
  obtain ⟨hlatch, hcursor, hfire, herrors⟩ := hrow
  exact
    { fire_iff := by rw [hfire, hcursor, h.fire_iff]
      tagged := by simp [hlatch, Latch.line?]
      unready_empty := fun _ => hlatch
      loaded := fun hn => absurd trivial hn
      offline_idle := fun hop => ⟨hcursor.trans (h.offline_idle hop).1, hlatch⟩
      errors_le := herrors ▸ h.errors_le
      errors_limit := fun hn => absurd trivial hn
      waits_iff := by simp [hlatch, Latch.waits, hwaiting]
      shifts_iff := by simp [hlatch, Latch.shifting?] }

section
variable {bare : RowId → Prop} {s t : State} {r : RowId}

/-- A row with its latch emptied, what its load held at the port given back (R84, R131). -/
theorem seatsOk_emptied (ok : SeatsOk bare s) {row row' : Row} (hrow : s.row r = some row)
    (hrow' : row'.latch = .empty ∧ row'.cursor = row.cursor ∧ row'.fire = row.fire ∧ row'.errors = row.errors)
    (hop : t.control.op = s.control.op) (hheads : t.geometry.heads = s.geometry.heads) (hsame : t.row r = some row')
    (hothers : ∀ q, q ≠ r → t.row q = s.row q)
    (hport : t.port (portOf r) = releaseLink (letterOf r) row.latch (s.port (portOf r)))
    (hports : ∀ x, x ≠ portOf r → t.port x = s.port x) : SeatsOk (fun q => q = r ∨ bare q) t := by
  have hne : ∀ q, portOf q ≠ portOf r → q ≠ r := fun q hq he => hq (he ▸ rfl)
  have hseat := ok.row hrow
  have hbench := ok (portOf r)
  have hletter : ∀ m, m ≠ letterOf r → rowOf (portOf r) m ≠ r := fun m hm he => hm (rowOf_eq_iff.mp he).2.symm
  have hself : rowOf (portOf r) (letterOf r) = r := rowOf_letterOf r
  refine ok.at_port (portOf r) hop hheads hports (fun q hq => hothers q (hne q hq)) (fun _ _ => .inr) ?_
  rw [hport]
  refine hbench.change (l := letterOf r) (row' := row') (by rw [hself, hsame])
    (fun m hm => hothers _ (hletter m hm)) ?_ ?_ (fun h => by rwa [releaseLink_state]) ?_ ?_
    (releaseLink_once hbench.once)
  · have hw := (mem_releaseLink_waiting (m := letterOf r) hseat.waits_iff).not.mpr fun h => h.1 rfl
    have hempty := hseat.emptied hw hrow'
    exact hempty.weaken fun _ => .inl hself
  · intro m x hm hx hold
    refine (hold.weaken .inr).port (releaseLink_state _ _ _) ?_ fun k hk => ?_
    · rw [mem_releaseLink_waiting hseat.waits_iff]
      exact and_iff_right hm
    · rw [releaseLink_link]
      split
      · rename_i hshift
        obtain ⟨j, hj⟩ := Option.isSome_iff_exists.mp hshift
        have heq := (hseat.shifts_iff j hj).symm.trans (hold.shifts_iff k hk)
        exact absurd (congrArg Prod.fst (Option.some.inj heq)).symm hm
      · rfl
  · intro m tag hlink
    rw [releaseLink_link] at hlink
    split at hlink
    · cases hlink
    · rename_i hshift
      refine .inr ⟨?_, hlink⟩
      rintro rfl
      obtain ⟨x, k, hx, hk⟩ := hbench.carried _ _ hlink
      rw [hself, hrow] at hx
      obtain rfl := Option.some.inj hx
      simp [hk] at hshift
  · exact fun m hm => .inr ((mem_releaseLink_waiting hseat.waits_iff).mp hm).2

theorem vacant_of_row {row row' : Row} (ok : SeatsOk bare s) (hr : ¬ bare r) (hrow : s.row r = some row)
    (hsame : t.row r = some row') (hrow' : row'.latch = .empty ∧ row'.errors = row.errors)
    (hport : (t.port (portOf r)).state = (s.port (portOf r)).state) : Vacant r t := fun x hx => by
  obtain rfl := Option.some.inj (hsame.symm.trans hx)
  exact ⟨hrow'.1, fun h => hport ▸ (ok.row hrow).errors_limit hr (hrow'.2 ▸ h)⟩

theorem clearLatch_row (r : RowId) (s : State) :
    (clearLatch r s).row r = (s.row r).map fun row => { row with latch := .empty } := by
  unfold clearLatch
  cases h : s.row r with
  | none => exact h
  | some row =>
    change (s.updateRow r _).row r = _
    rw [State.row_updateRow_same, h]

theorem clearLatch_port (r : RowId) (s : State) (x : PortId) :
    (clearLatch r s).port x = if portOf r = x then
      (match s.row r with
      | some row => releaseLink (letterOf r) row.latch (s.port x)
      | none => s.port x) else s.port x := by
  unfold clearLatch
  cases h : s.row r with
  | none => simp
  | some row =>
    rw [State.port_updatePort]
    split
    · rename_i hx
      rw [← hx]
      rfl
    · rfl

theorem clearLatch_port_state (r : RowId) (s : State) (x : PortId) :
    ((clearLatch r s).port x).state = (s.port x).state := ((rowEvent_clearLatch r s).ports x).1

theorem seatsOk_clearLatch (ok : SeatsOk bare s) (r : RowId) :
    SeatsOk (fun q => q = r ∨ bare q) (clearLatch r s) := by
  cases hrow : s.row r with
  | none =>
    have hsame : clearLatch r s = s := by unfold clearLatch; rw [hrow]
    rw [hsame]
    exact ok.weaken fun _ => .inr
  | some row =>
    refine seatsOk_emptied ok hrow (row' := { row with latch := .empty }) ⟨rfl, rfl, rfl, rfl⟩
      (congrArg Control.op (rowEvent_clearLatch r s).control) (rowEvent_clearLatch r s).heads ?_
      (fun q hq => clearLatch_row_of_ne hq.symm s) ?_ fun x hx => ?_
    · rw [clearLatch_row, hrow, Option.map_some]
    · rw [clearLatch_port, if_pos rfl, hrow]
    · rw [clearLatch_port, if_neg (Ne.symm hx)]

theorem vacant_clearLatch (ok : SeatsOk bare s) (hr : ¬ bare r) : Vacant r (clearLatch r s) := fun row' hrow' => by
  rw [clearLatch_row] at hrow'
  obtain ⟨row, hrow, rfl⟩ := Option.map_eq_some_iff.mp hrow'
  exact ⟨rfl, fun h => clearLatch_port_state r s _ ▸ (ok.row hrow).errors_limit hr h⟩

/-! ### The outcome of a fire decision at its row -/

theorem startPlay_row (r : RowId) (codes : List Code) (s : State) :
    ∃ drive, (startPlay r codes s).row r = (s.row r).map fun row => { row with latch := .empty, drive := drive } := by
  unfold startPlay
  dsimp only
  split <;> exact ⟨_, State.row_updateRow_same s r _⟩

theorem startPlay_ports (r : RowId) (codes : List Code) (s : State) : (startPlay r codes s).ports = s.ports := by
  unfold startPlay
  dsimp only
  split <;> rfl

/-- A fired line leaves the READY latch empty, and a dropped line cuts the load; nothing else stands at the port. -/
theorem seatsOk_carryOut {row : Row} {o : LineOutcome} {fault : Bool} (c : Cursor) (ok : SeatsOk bare s)
    (hrow : s.row r = some row) (hr : ¬ bare r) (ho : judgeLine fault row = some o) :
    SeatsOk (fun q => q = r ∨ bare q) (carryOut r c o s) ∧ Vacant r (carryOut r c o s) := by
  cases o with
  | dropped cause =>
    have hpost := seatsOk_of_seats (t := carryOut r c (.dropped cause) s) (seatsOk_clearLatch ok r) rfl
    exact ⟨hpost, vacant_clearLatch ok hr⟩
  | fired list =>
    have hready : ∃ k, row.latch = .ready k list := by
      unfold judgeLine at ho
      split at ho
      · cases ho
      · split at ho
        · cases ho
        · split at ho
          · cases ho
            exact ⟨_, by assumption⟩
          · cases ho
          · cases ho
          · cases ho
    obtain ⟨k, hlatch⟩ := hready
    obtain ⟨drive, hsame⟩ := startPlay_row r list.codes s
    rw [hrow, Option.map_some] at hsame
    have hevent := rowEvent_startPlay r list.codes s
    have hport := State.port_congr (startPlay_ports r list.codes s)
    refine ⟨seatsOk_emptied ok hrow (t := startPlay r list.codes s)
      (row' := { row with latch := .empty, drive := drive }) ⟨rfl, rfl, rfl, rfl⟩
      (congrArg Control.op hevent.control) hevent.heads hsame (fun q hq => startPlay_row_of_ne hq.symm _ s) ?_
      fun x _ => hport x, ?_⟩
    · rw [hport, hlatch]
      rfl
    · exact vacant_of_row ok hr hrow hsame ⟨rfl, rfl⟩ (congrArg Port.state (hport _))

/-! ### A new place for a row -/

/-- A vacant row may be placed anywhere while ONLINE. -/
theorem seatsOk_placed {f : Row → Row} (ok : SeatsOk (fun q => q = r ∨ bare q) s) (hv : Vacant r s)
    (hf : ∀ row, (f row).latch = row.latch ∧ (f row).errors = row.errors ∧
      (f row).fire.isSome = (f row).cursor.isSome)
    (hop : ∀ row, s.row r = some row → s.control.op ≠ .online → (f row).cursor = none) :
    SeatsOk (fun q => q = r ∨ bare q) (s.updateRow r f) ∧ Vacant r (s.updateRow r f) := by
  refine ⟨ok.updateRow (fun _ _ => id) fun row hrow h => ?_, fun row' hrow' => ?_⟩
  · obtain ⟨hlatch, herrors, hfire⟩ := hf row
    have hempty := (hv row hrow).1
    refine ⟨?_, by rw [hlatch]⟩
    exact
      { fire_iff := hfire
        tagged := by simp [hlatch, hempty, Latch.line?]
        unready_empty := fun _ => hlatch.trans hempty
        loaded := fun hn => absurd (.inl rfl) hn
        offline_idle := fun ho => ⟨hop row hrow ho, hlatch.trans hempty⟩
        errors_le := herrors ▸ h.errors_le
        errors_limit := fun hn => absurd (.inl rfl) hn
        waits_iff := hlatch ▸ h.waits_iff
        shifts_iff := hlatch ▸ h.shifts_iff }
  · rw [State.row_updateRow_same] at hrow'
    obtain ⟨row, hrow, rfl⟩ := Option.map_eq_some_iff.mp hrow'
    obtain ⟨hempty, hlimit⟩ := hv row hrow
    obtain ⟨hlatch, herrors, -⟩ := hf row
    exact ⟨hlatch.trans hempty, fun h => hlimit (herrors.symm.trans h)⟩

theorem seatsOk_takeUp (ok : SeatsOk (fun q => q = r ∨ bare q) s) (hv : Vacant r s) (hop : s.control.op = .online)
    (next : Option Page) :
    SeatsOk (fun q => q = r ∨ bare q) (takeUp r next s) ∧ Vacant r (takeUp r next s) := by
  cases next with
  | none => exact seatsOk_placed ok hv (fun _ => ⟨rfl, rfl, rfl⟩) fun _ _ _ => rfl
  | some p => exact seatsOk_placed ok hv (fun _ => ⟨rfl, rfl, rfl⟩) fun _ _ h => absurd hop h

theorem seatsOk_placeCursor (ok : SeatsOk (fun q => q = r ∨ bare q) s) (hv : Vacant r s)
    (hop : s.control.op = .online) (page line : Nat) :
    SeatsOk (fun q => q = r ∨ bare q) (placeCursor r page line s) ∧ Vacant r (placeCursor r page line s) :=
  seatsOk_placed ok hv (fun _ => ⟨rfl, rfl, rfl⟩) fun _ _ h => absurd hop h

/-! ### Loads -/

theorem seatsOk_fetchWords (ok : SeatsOk bare s) (n : Nat) (r : RowId) : SeatsOk bare (fetchWords n r s) := by
  unfold fetchWords
  split
  · rename_i line ctx hlatch
    split
    · exact ok
    · refine (seatsOk_of_seats ok (steady_readWords _ _ _ s).seats).updateRow (fun _ _ => id) fun row hrow h => ?_
      rw [readWords_row] at hrow
      have hl : row.latch = .loading line (.assembling ctx) := by simpa [hrow] using hlatch
      refine ⟨?_, by rw [hl]; rfl⟩
      have hready := h.unready_empty
      rw [hl] at hready
      exact
        { h with
          tagged := fun k hk => h.tagged k (by rw [hl]; exact hk)
          unready_empty := fun hp => absurd (hready hp) (by simp)
          loaded := fun _ _ _ _ => by simp
          offline_idle := fun ho => absurd (hl.symm.trans (h.offline_idle ho).2) (by simp)
          waits_iff := by rw [← h.waits_iff, hl]; rfl
          shifts_iff := fun k hk => h.shifts_iff k (by rw [hl]; exact hk) }
  · exact ok

theorem seatsOk_openContext {c : Cursor} (ok : SeatsOk (fun q => q = r ∨ bare q) s) (hv : Vacant r s)
    (hc : (s.row r).bind (·.cursor) = some c) (hready : (s.port (portOf r)).state = .ready) :
    SeatsOk bare (openContext r c s) := by
  refine ok.updateRow (fun q hq hb => hb.resolve_left hq) fun row hrow h => ?_
  obtain ⟨hempty, hlimit⟩ := hv row hrow
  have hcursor : row.cursor = some c := by simpa [hrow] using hc
  refine ⟨?_, by rw [hempty]; rfl⟩
  exact
    { h with
      tagged := fun k hk => by
        cases hk
        rw [hcursor]
        rfl
      unready_empty := fun hp => absurd hready hp
      loaded := fun _ _ _ _ => by simp
      offline_idle := fun ho => by
        have hnone := (h.offline_idle ho).1
        rw [hcursor] at hnone
        cases hnone
      errors_limit := fun _ => hlimit
      waits_iff := by rw [← h.waits_iff, hempty]; rfl
      shifts_iff := fun k hk => by cases hk }

/-- The load that a vacant row is owed (R77, R80). -/
theorem seatsOk_beginLoad (ok : SeatsOk (fun q => q = r ∨ bare q) s) (hv : Vacant r s) (n : Nat) :
    SeatsOk bare (beginLoad n r s) := by
  have hlimit : ∀ row, s.row r = some row → row.errors = 16 → (s.port (portOf r)).state ≠ .ready :=
    fun row hrow => (hv row hrow).2
  unfold beginLoad
  split
  · rename_i c hc
    split
    · rename_i hready
      have hopen := seatsOk_openContext ok hv hc hready
      unfold beginLoadAt
      split
      · exact seatsOk_fetchWords (seatsOk_of_seats hopen (steady_takeStripe _ _ _ _).seats) n r
      · exact seatsOk_of_seats hopen (steady_noteUnderrun _ _ _ _).seats
    · rename_i hready
      exact ok.dress (fun _ _ _ h => absurd h hready) hlimit
  · rename_i hc
    refine ok.dress (fun row hrow _ _ h => ?_) hlimit
    rw [hrow, Option.bind_some] at hc
    rw [hc] at h
    cases h

/-- An idle row is vacant. -/
theorem vacant_of_idle {row : Row} (ok : SeatsOk bare s) (hr : ¬ bare r) (hrow : s.row r = some row)
    (hidle : row.cursor = none) : Vacant r s := fun x hx => by
  obtain rfl := Option.some.inj (hrow.symm.trans hx)
  refine ⟨?_, (ok.row hrow).errors_limit hr⟩
  have htag := (ok.row hrow).tagged
  rw [hidle] at htag
  generalize row.latch = latch at htag
  cases latch with
  | empty => rfl
  | failed k => exact absurd (htag k rfl) (by simp)
  | loading k load => exact absurd (htag k rfl) (by simp)
  | ready k list => exact absurd (htag k rfl) (by simp)

/-! ### Rows on the move -/

theorem finishPage_seats (id : Nat) (s : State) : (finishPage id s).seats = s.seats := by
  unfold finishPage
  dsimp only
  split
  · split
    · exact (steady_storePageEnd _ _).seats.trans (steady_reportDone _ _).seats
    · rfl
  · rfl

theorem vacant_of_seats (hv : Vacant r s) (h : t.seats = s.seats) : Vacant r t := fun row hrow => by
  rw [State.row_congr (congrArg Seats.rows h)] at hrow
  rw [State.port_congr (congrArg Seats.ports h)]
  exact hv row hrow

theorem seatsOk_moveOn (ok : SeatsOk (fun q => q = r ∨ bare q) s) (hv : Vacant r s) (hop : s.control.op = .online)
    (n : Nat) (c : Cursor) : SeatsOk bare (moveOn n r c s) := by
  unfold moveOn
  split
  · obtain ⟨ok', hv'⟩ := seatsOk_takeUp ok hv hop none
    refine ok'.dress (fun row hrow _ _ h => ?_) fun row hrow => (hv' row hrow).2
    rw [takeUp, makeIdle, State.row_updateRow_same] at hrow
    obtain ⟨row, -, rfl⟩ := Option.map_eq_some_iff.mp hrow
    cases h
  · split
    · obtain ⟨ok', hv'⟩ := seatsOk_placeCursor ok hv hop c.page (c.line + 1)
      exact seatsOk_beginLoad ok' hv' n
    · obtain ⟨ok', hv'⟩ := seatsOk_takeUp ok hv hop (nextStarted s.pages c.page (rowBar r))
      have hseats := finishPage_seats c.page (takeUp r (nextStarted s.pages c.page (rowBar r)) s)
      exact seatsOk_beginLoad (seatsOk_of_seats ok' hseats) (vacant_of_seats hv' hseats) n

theorem seatsOk_fireDecision (ok : SeatsOk noRow s) (n : Nat) (r : RowId) : SeatsOk noRow (fireDecision n r s) := by
  unfold fireDecision
  split
  · exact ok
  · rename_i row hrow
    split
    · exact ok
    · rename_i c hc
      split
      · exact ok
      · rename_i o ho
        have honline : s.control.op = .online := by
          by_contra hop
          have hnone := ((ok.row hrow).offline_idle hop).1
          rw [hc] at hnone
          cases hnone
        obtain ⟨ok', hv⟩ := seatsOk_carryOut c ok hrow id ho
        have hop : (carryOut r c o s).control.op = .online := by
          rw [(rowEvent_carryOut r c o s).control]
          exact honline
        have hcount := seatsOk_of_seats (t := (carryOut r c o s).updatePage c.page fun p => p.count o) ok' rfl
        have hmove := seatsOk_moveOn hcount hv hop n c
        exact seatsOk_of_seats hmove
          ((steady_judgeChangeover _ _).seats.trans (steady_judgeRetirement _ _).seats)

theorem seatsOk_takeUpStart (ok : SeatsOk noRow s) (hop : s.control.op = .online) (n : Nat) (p : Page) (r : RowId) :
    SeatsOk noRow (takeUpStart n p r s) := by
  unfold takeUpStart
  split
  · exact ok
  · rename_i row hrow
    split
    · rename_i hidle
      have hv := vacant_of_idle ok id hrow hidle.1
      obtain ⟨ok', hv'⟩ := seatsOk_placeCursor (ok.weaken fun _ => .inr) hv hop p.id 0
      exact seatsOk_beginLoad ok' hv' n
    · exact ok

theorem seatsOk_leavePage (ok : SeatsOk noRow s) (hop : s.control.op = .online) (n id : Nat) (r : RowId) :
    SeatsOk noRow (leavePage n id r s) := by
  unfold leavePage
  split
  · exact ok
  · split
    · have hop' : (clearLatch r s).control.op = .online := by
        rw [(rowEvent_clearLatch r s).control]
        exact hop
      obtain ⟨ok', hv'⟩ := seatsOk_takeUp (seatsOk_clearLatch ok r) (vacant_clearLatch ok not_false) hop'
        (nextStarted s.pages id (rowBar r))
      exact seatsOk_beginLoad ok' hv' n
    · exact ok

end

end Sys2Proof.Machine
end

section
/-! PROOF. Rows and ports: what the events at a head port keep of their agreement (R82, R83, R96, R99, R126 to R135). -/

namespace Sys2Proof.Machine

/-! ### What a link and a latch show -/

theorem Latch.eq_of_shifting {latch : Latch} {k : Nat} (h : latch.shifting? = some k) :
    ∃ list, latch = .loading k (.shifting list) := by
  unfold Latch.shifting? at h
  split at h
  · cases h
    exact ⟨_, rfl⟩
  all_goals cases h

theorem Latch.eq_of_waits {latch : Latch} (h : latch.waits = true) :
    ∃ k list, latch = .loading k (.waiting list) := by
  unfold Latch.waits at h
  split at h
  · exact ⟨_, _, rfl⟩
  all_goals cases h

theorem onLink_eq_some {s : State} {p : PortId} {kind : HeaderKind} {h : LineHeader}
    (hlink : onLink s p kind = some h) :
    h.kind = kind ∧ carriedLoad (s.port p).link = if kind = .load then some (h.letter, h.tag) else none := by
  unfold onLink at hlink
  split at hlink
  · rename_i ex hex
    split at hlink
    · rename_i hkind
      cases hlink
      refine ⟨hkind, ?_⟩
      rw [hex, carriedLoad, hkind]
    · cases hlink
  · cases hlink

theorem carriedLoad_of_onLink {s : State} {p : PortId} {kind : HeaderKind} (h : (onLink s p kind).isSome = true)
    (hkind : kind ≠ .load) : carriedLoad (s.port p).link = none := by
  obtain ⟨x, hx⟩ := Option.isSome_iff_exists.mp h
  rw [(onLink_eq_some hx).2, if_neg hkind]

theorem carriedLoad_headerOnly (g : Geometry) (p : PortId) {kind : HeaderKind} (l : Letter) (h : kind ≠ .load) :
    carriedLoad (some (headerOnly g p kind l)) = none := if_neg h

section
variable {bare : RowId → Prop} {s t : State} {p : PortId}

theorem SeatsOk.seat (ok : SeatsOk bare s) {l : Letter} {row : Row} (h : s.row (rowOf p l) = some row) :
    SeatOk (s.port p) s.control.op l (bare (rowOf p l)) row := (ok p).seats l row h

/-- A port that is not READY has no load on its link. -/
theorem carriedLoad_of_unready (ok : SeatsOk bare s) (h : (s.port p).state ≠ .ready) :
    carriedLoad (s.port p).link = none := by
  rw [Option.eq_none_iff_forall_ne_some]
  rintro ⟨l, tag⟩ hlink
  obtain ⟨row, k, hrow, hk⟩ := (ok p).carried l tag hlink
  rw [(ok.seat hrow).unready_empty h] at hk
  cases hk

/-- The row whose load a link carries, at a READY port. -/
theorem carried_row (ok : SeatsOk bare s) {l : Letter} {tag : Byte} (h : carriedLoad (s.port p).link = some (l, tag)) :
    (s.port p).state = .ready ∧
      ∃ row k list, s.row (rowOf p l) = some row ∧ row.latch = .loading k (.shifting list) := by
  obtain ⟨row, k, hrow, hk⟩ := (ok p).carried l tag h
  obtain ⟨list, hlatch⟩ := Latch.eq_of_shifting hk
  refine ⟨?_, row, k, list, hrow, hlatch⟩
  by_contra hready
  rw [carriedLoad_of_unready ok hready] at h
  cases h

/-! ### Changes of a port's record -/

theorem seatsOk_note (ok : SeatsOk bare s) (p : PortId) {f : Port → Port}
    (hf : (f (s.port p)).state = (s.port p).state ∧ (f (s.port p)).link = (s.port p).link ∧
      (f (s.port p)).waiting = (s.port p).waiting) : SeatsOk bare (s.updatePort p f) := by
  obtain ⟨hstate, hlink, hwaiting⟩ := hf
  refine ok.updatePort p f ?_ fun _ _ => id
  exact
    { served := hstate ▸ (ok p).served
      seats := fun l row hrow => ((ok p).seats l row hrow).port hstate (by rw [hwaiting]) fun _ _ => by rw [hlink]
      carried := hlink ▸ (ok p).carried
      waiting := hwaiting ▸ (ok p).waiting
      once := hwaiting ▸ (ok p).once }

theorem seatsOk_takeBrief (ok : SeatsOk bare s) (p : PortId) (st : BriefStatus) : SeatsOk bare (takeBrief p st s) := by
  have hnote := seatsOk_note ok p (f := fun q => { q with last := some st, warm := st.warning }) ⟨rfl, rfl, rfl⟩
  unfold takeBrief
  dsimp only
  split
  · exact seatsOk_of_seats hnote rfl
  · exact hnote

theorem post_port (t : Topic) (d : Detail) (s : State) (x : PortId) : (post t d s).port x = s.port x := rfl

theorem takeBrief_port (p : PortId) (st : BriefStatus) (s : State) (x : PortId) :
    ((takeBrief p st s).port x).state = (s.port x).state ∧ ((takeBrief p st s).port x).link = (s.port x).link := by
  have hnote : ∀ f : Port → Port, (∀ q, (f q).state = q.state ∧ (f q).link = q.link) →
      ((s.updatePort p f).port x).state = (s.port x).state ∧ ((s.updatePort p f).port x).link = (s.port x).link := by
    intro f hf
    rw [State.port_updatePort]
    split
    · subst_vars
      exact hf _
    · exact ⟨rfl, rfl⟩
  unfold takeBrief
  dsimp only
  split
  · rw [post_port]
    exact hnote (fun q => { q with last := some st, warm := st.warning }) fun _ => ⟨rfl, rfl⟩
  · exact hnote _ fun _ => ⟨rfl, rfl⟩

theorem takeBrief_frame (p : PortId) (st : BriefStatus) (s : State) :
    (takeBrief p st s).rows = s.rows ∧ (takeBrief p st s).control = s.control ∧ (takeBrief p st s).link = s.link ∧
      (takeBrief p st s).geometry = s.geometry ∧ (takeBrief p st s).pages = s.pages := by
  unfold takeBrief
  dsimp only
  split <;> exact ⟨rfl, rfl, rfl, rfl, rfl⟩

theorem seatsOk_relink (ok : SeatsOk bare s) (hold : carriedLoad (s.port p).link = none) {link : Option Exchange}
    (hnew : carriedLoad link = none) : SeatsOk bare (s.updatePort p fun q => { q with link := link }) :=
  ok.updatePort p _ ((ok p).relink hold hnew) fun _ _ => id

theorem seatsOk_freeLink (ok : SeatsOk bare s) (hold : carriedLoad (s.port p).link = none) :
    SeatsOk bare (freeLink p s) := seatsOk_relink ok hold rfl

/-! ### Port faults (R95, R129) -/

theorem updatePort_updatePort (s : State) (p : PortId) (f g : Port → Port) :
    (s.updatePort p f).updatePort p g = s.updatePort p fun q => g (f q) := by
  simp [State.updatePort]

/-- Emptying a latch and a change of the port's state are independent. -/
theorem clearLatch_updatePort {f : Port → Port}
    (hf : ∀ l latch q, releaseLink l latch (f q) = f (releaseLink l latch q)) (p : PortId) (l : Letter) (s : State) :
    clearLatch (rowOf p l) (s.updatePort p f) = (clearLatch (rowOf p l) s).updatePort p f := by
  have hrow : (s.updatePort p f).row (rowOf p l) = s.row (rowOf p l) := rfl
  unfold clearLatch
  rw [hrow]
  cases s.row (rowOf p l) with
  | none => rfl
  | some row =>
    change ((s.updateRow _ _).updatePort p f).updatePort _ _ = ((s.updateRow _ _).updatePort _ _).updatePort p f
    rw [portOf_rowOf, updatePort_updatePort, updatePort_updatePort]
    exact congrArg _ (funext fun q => hf _ _ q)

theorem releaseLink_fault (cause : FaultCause) (l : Letter) (latch : Latch) (q : Port) :
    releaseLink l latch { q with state := .fault, cause := cause } =
      { releaseLink l latch q with state := .fault, cause := cause } := by
  unfold releaseLink
  split <;> rfl

/-- The latches of both rows of a port emptied. -/
def clearLatches (p : PortId) (s : State) : State := clearLatch (rowOf p .B) (clearLatch (rowOf p .A) s)

theorem faultPort_ready (cause : FaultCause) (h : (s.port p).state = .ready) :
    faultPort p cause s = post (.headFault p) (.fault cause)
      ((clearLatches p s).updatePort p fun q => { q with state := .fault, cause := cause }) := by
  rw [faultPort, if_pos h, clearLatch_updatePort (releaseLink_fault cause),
    clearLatch_updatePort (releaseLink_fault cause)]
  rfl

theorem rowOf_ne {l m : Letter} (h : l ≠ m) : rowOf p l ≠ rowOf p m := fun he =>
  h (by simpa using congrArg letterOf he)

theorem clearLatches_row {l : Letter} {row : Row} (h : (clearLatches p s).row (rowOf p l) = some row) :
    row.latch = .empty := by
  unfold clearLatches at h
  cases l with
  | A =>
    rw [clearLatch_row_of_ne (rowOf_ne (by decide)), clearLatch_row] at h
    obtain ⟨x, -, rfl⟩ := Option.map_eq_some_iff.mp h
    rfl
  | B =>
    rw [clearLatch_row] at h
    obtain ⟨x, -, rfl⟩ := Option.map_eq_some_iff.mp h
    rfl

/-- A fault empties both latches of its port, and with that ends what a bare row of the port is owed. -/
theorem seatsOk_faultPort (ok : SeatsOk bare s) (hbare : ∀ r, bare r → portOf r = p) (cause : FaultCause)
    (h : (s.port p).state = .ready) : SeatsOk noRow (faultPort p cause s) := by
  have hclear := seatsOk_clearLatch (seatsOk_clearLatch ok (rowOf p .A)) (rowOf p .B)
  rw [faultPort_ready cause h]
  refine seatsOk_of_seats (s := (clearLatches p s).updatePort p fun q => { q with state := .fault, cause := cause })
    (SeatsOk.updatePort hclear p _ ?_ ?_) rfl
  · refine (hclear p).change_port (by simp) (fun l row hrow hseat => ?_) rfl rfl
    have hempty := clearLatches_row hrow
    exact
      { hseat with
        unready_empty := fun _ => hempty
        loaded := fun _ _ hp => by cases hp
        errors_limit := fun _ _ => by simp }
  · rintro r hr (rfl | rfl | hb)
    · exact hr (portOf_rowOf p .B)
    · exact hr (portOf_rowOf p .A)
    · exact hr (hbare r hb)

theorem faultPort_port_state (cause : FaultCause) (h : (s.port p).state = .ready) :
    ((faultPort p cause s).port p).state = .fault := by
  rw [faultPort_ready cause h, post_port, State.port_updatePort_same]

/-- A fault at a port leaves every port that is FAULT as it is in that. -/
theorem faultPort_keeps_fault (cause : FaultCause) {x : PortId} (h : (s.port x).state = .fault) :
    ((faultPort p cause s).port x).state = .fault := by
  by_cases hready : (s.port p).state = .ready
  · by_cases hx : x = p
    · subst hx
      exact faultPort_port_state cause hready
    · have hport : (faultPort p cause s).port x = (clearLatches p s).port x := by
        rw [faultPort_ready cause hready, post_port, State.port_updatePort, if_neg (Ne.symm hx)]
      rw [hport, clearLatches, clearLatch_port_state, clearLatch_port_state, h]
  · rw [faultPort, if_neg hready, h]

theorem faultPort_busy (p : PortId) (cause : FaultCause) (s : State) : (faultPort p cause s).link = s.link := by
  have hclear : ∀ (r : RowId) (u : State), (clearLatch r u).link = u.link := fun r u => (rowEvent_clearLatch r u).link
  unfold faultPort
  split
  · change (clearLatch _ (clearLatch _ _)).link = s.link
    rw [hclear, hclear]
    rfl
  · rfl

/-- A fault frees the link of its port of any load. -/
theorem seatsOk_faultPort_freed (ok : SeatsOk bare s) (hbare : ∀ r, bare r → portOf r = p) (cause : FaultCause)
    (h : (s.port p).state = .ready) : SeatsOk noRow (freeLink p (faultPort p cause s)) := by
  have hfault := seatsOk_faultPort ok hbare cause h
  refine seatsOk_freeLink hfault (carriedLoad_of_unready hfault ?_)
  rw [faultPort_port_state cause h]
  decide

/-! ### The end of an assembly, and the link (R99, R126) -/

theorem joinWaiting_filter (query : Bool) (l : Letter) (ws : List Requester) :
    (joinWaiting query l ws).filter (fun q => q ≠ .query) = ws.filter (fun q => q ≠ .query) ++ [.shift l] := by
  unfold joinWaiting
  split
  · rename_i h
    obtain ⟨ys, rfl⟩ := List.getLast?_eq_some_iff.mp h.2
    simp
  · simp

/-- A change of a row and of its port. -/
theorem SeatsOk.change {bare' : RowId → Prop} (ok : SeatsOk bare s) {r : RowId} {f : Row → Row} {g : Port → Port}
    {row : Row} (hrow : s.row r = some row)
    (hseat : SeatOk (g (s.port (portOf r))) s.control.op (letterOf r) (bare' r) (f row))
    (hother : ∀ m x, m ≠ letterOf r → SeatOk (s.port (portOf r)) s.control.op m (bare (rowOf (portOf r) m)) x →
      SeatOk (g (s.port (portOf r))) s.control.op m (bare (rowOf (portOf r) m)) x)
    (hserved : (g (s.port (portOf r))).state = (s.port (portOf r)).state)
    (hcarried : ∀ m tag, carriedLoad (g (s.port (portOf r))).link = some (m, tag) →
      m = letterOf r ∧ (∃ k, (f row).latch.shifting? = some k) ∨
        m ≠ letterOf r ∧ carriedLoad (s.port (portOf r)).link = some (m, tag))
    (hwaiting : ∀ m, Requester.shift m ∈ (g (s.port (portOf r))).waiting →
      m = letterOf r ∨ Requester.shift m ∈ (s.port (portOf r)).waiting)
    (honce : ((g (s.port (portOf r))).waiting.filter fun q => q ≠ .query).Nodup)
    (hbare : ∀ q, q ≠ r → bare q → bare' q) :
    SeatsOk bare' ((s.updateRow r f).updatePort (portOf r) g) := by
  have hne : ∀ q, portOf q ≠ portOf r → q ≠ r := fun q hq he => hq (he ▸ rfl)
  have hletter : ∀ m, m ≠ letterOf r → rowOf (portOf r) m ≠ r := fun m hm he => hm (rowOf_eq_iff.mp he).2.symm
  have hself : rowOf (portOf r) (letterOf r) = r := rowOf_letterOf r
  refine ok.at_port (portOf r) rfl rfl (fun x hx => ?_) (fun q hq => State.row_updateRow_of_ne s f (hne q hq).symm)
    (fun q hq => hbare q (hne q hq)) ?_
  · rw [State.port_updatePort, if_neg (Ne.symm hx)]
    rfl
  · rw [State.port_updatePort_same]
    refine (ok (portOf r)).change (l := letterOf r) (row' := f row) ?_ ?_ ?_ ?_ (fun h => hserved ▸ h)
      hcarried hwaiting honce
    · rw [hself]
      exact (State.row_updateRow_same s r f).trans (by rw [hrow, Option.map_some])
    · exact fun m hm => State.row_updateRow_of_ne s f (hletter m hm).symm
    · rwa [hself]
    · exact fun m x hm _ hold => (hother m x hm hold).weaken (hbare _ (hletter m hm))

theorem carriedLoad_of_not_shifting (ok : SeatsOk bare s) {l : Letter} {row : Row} (hrow : s.row (rowOf p l) = some row)
    (h : row.latch.shifting? = none) {m : Letter} {tag : Byte} (hlink : carriedLoad (s.port p).link = some (m, tag)) :
    m ≠ l := by
  rintro rfl
  obtain ⟨x, k, hx, hk⟩ := (ok p).carried m tag hlink
  obtain rfl := Option.some.inj (hrow.symm.trans hx)
  rw [h] at hk
  cases hk

/-- A row whose load goes on from one stage to the next keeps its seat but for what its port holds of it. -/
theorem SeatOk.next_stage {q q' : Port} {op : OpState} {l : Letter} {row row' : Row} {k : Nat} {load load' : Load}
    (h : SeatOk q op l False row) (hlatch : row.latch = .loading k load)
    (hrow : row' = { row with latch := .loading k load' }) (hstate : q'.state = q.state)
    (hwaits : row'.latch.waits = true ↔ Requester.shift l ∈ q'.waiting)
    (hshifts : ∀ j, row'.latch.shifting? = some j → carriedLoad q'.link = some (l, BitVec.ofNat 8 j)) :
    SeatOk q' op l False row' := by
  subst hrow
  have hempty := h.unready_empty
  rw [hlatch] at hempty
  exact
    { fire_iff := h.fire_iff
      tagged := fun j hj => h.tagged j (by rw [hlatch]; exact hj)
      unready_empty := fun hp => absurd (hempty (hstate ▸ hp)) (by simp)
      loaded := fun _ _ _ _ => by simp
      offline_idle := fun ho => absurd (hlatch.symm.trans (h.offline_idle ho).2) (by simp)
      errors_le := h.errors_le
      errors_limit := fun hn => hstate ▸ h.errors_limit hn
      waits_iff := hwaits
      shifts_iff := hshifts }

theorem not_waiting_of_seat {q : Port} {op : OpState} {l : Letter} {b : Prop} {row : Row} (h : SeatOk q op l b row)
    (hlatch : row.latch.waits = false) : Requester.shift l ∉ q.waiting := fun hm => by
  rw [h.waits_iff.mpr hm] at hlatch
  cases hlatch

/-- An assembled load's shift asks for the link (R126). -/
theorem seatsOk_joinQueue (ok : SeatsOk noRow s) {r : RowId} {row : Row} {line : Nat} {ctx : Context} (query : Bool)
    (list : CodeList) (hrow : s.row r = some row) (hlatch : row.latch = .loading line (.assembling ctx)) :
    SeatsOk noRow ((s.updateRow r fun row => { row with latch := .loading line (.waiting list) }).updatePort (portOf r)
      fun p => { p with waiting := joinWaiting query (letterOf r) p.waiting }) := by
  have hseat := ok.row hrow
  have hnot := not_waiting_of_seat hseat (by rw [hlatch]; rfl)
  refine ok.change hrow ?_ ?_ rfl ?_ ?_ ?_ fun _ _ => id
  · refine SeatOk.next_stage hseat hlatch rfl rfl ?_ fun j hj => by cases hj
    exact iff_of_true rfl ((mem_joinWaiting query (letterOf r) _ _).mpr (.inr rfl))
  · refine fun m x hm hold => hold.port rfl ?_ fun _ _ => rfl
    rw [mem_joinWaiting]
    simp [hm]
  · intro m tag hlink
    refine .inr ⟨?_, hlink⟩
    exact carriedLoad_of_not_shifting ok (row := row) (by rw [rowOf_letterOf, hrow]) (by rw [hlatch]; rfl) hlink
  · intro m hm
    rcases (mem_joinWaiting query (letterOf r) _ _).mp hm with h | h
    · exact .inr h
    · exact .inl (by simpa using h)
  · rw [joinWaiting_filter, List.nodup_append_comm, List.singleton_append, List.nodup_cons]
    exact ⟨fun hm => hnot (List.mem_of_mem_filter hm), (ok (portOf r)).once⟩

theorem seatsOk_endAssembly (ok : SeatsOk noRow s) (query : Bool) (r : RowId) :
    SeatsOk noRow (endAssembly query r s) := by
  unfold endAssembly
  split
  · dsimp only
    split
    · rename_i hlatch
      obtain ⟨row, hrow, hl⟩ := Option.map_eq_some_iff.mp hlatch
      exact seatsOk_joinQueue (seatsOk_fetchWords ok _ r) query _ hrow hl
    · exact seatsOk_fetchWords ok _ r
  · exact ok

/-- The link goes to a row's shift (R126, R127). -/
theorem seatsOk_grantShift (ok : SeatsOk noRow s) {l : Letter} {rest : List Requester}
    (hlink : (s.port p).link = none) (hwaiting : (s.port p).waiting = .shift l :: rest) :
    SeatsOk noRow (grantShift p l rest s) := by
  have hmem : Requester.shift l ∈ (s.port p).waiting := by rw [hwaiting]; exact List.mem_cons_self
  obtain ⟨row, hrow⟩ := Option.isSome_iff_exists.mp ((ok p).waiting l hmem)
  have hseat := ok.row hrow
  rw [portOf_rowOf, letterOf_rowOf] at hseat
  obtain ⟨k, list, hlatch⟩ := Latch.eq_of_waits (hseat.waits_iff.mpr hmem)
  have honce := (ok p).once
  rw [hwaiting, List.filter_cons_of_pos (by simp), List.nodup_cons] at honce
  have hrest : Requester.shift l ∉ rest := fun hm => honce.1 (List.mem_filter.mpr ⟨hm, by simp⟩)
  have hchange := ok.change (r := rowOf p l) (bare' := noRow)
    (f := fun row => { row with latch := .loading k (.shifting list) })
    (g := fun q => { q with link := some (loadExchange s.geometry p l k list), waiting := rest }) hrow
  simp only [portOf_rowOf, letterOf_rowOf] at hchange
  unfold grantShift
  rw [hrow, Option.map_some, hlatch]
  refine hchange ?_ ?_ trivial ?_ ?_ honce.2 fun _ _ => id
  · refine SeatOk.next_stage hseat hlatch rfl rfl (iff_of_false Bool.false_ne_true hrest) fun j hj => ?_
    cases hj
    rfl
  · refine fun m x hm hold => hold.port rfl ?_ fun j hj => ?_
    · rw [hwaiting, List.mem_cons, or_iff_right (by simpa using hm)]
    · have := hold.shifts_iff j hj
      rw [hlink] at this
      cases this
  · rintro m tag hcarried
    cases hcarried
    exact .inl ⟨rfl, k, rfl⟩
  · exact fun m hm => .inr (by rw [hwaiting]; exact List.mem_cons_of_mem _ hm)

theorem seatsOk_grantQuery (ok : SeatsOk noRow s) {rest : List Requester} (hlink : (s.port p).link = none)
    (hwaiting : (s.port p).waiting = .query :: rest) :
    SeatsOk noRow (s.updatePort p fun q =>
      { q with link := some (headerOnly s.geometry p .query .A), waiting := rest }) := by
  have hold : carriedLoad (s.port p).link = none := by rw [hlink]; rfl
  have hnew := carriedLoad_headerOnly s.geometry p (kind := .query) .A (by decide)
  refine ok.updatePort p _ ?_ fun _ _ => id
  exact
    { served := (ok p).served
      seats := fun l row hrow => ((ok p).seats l row hrow).port rfl (by simp [hwaiting]) fun _ _ => hnew.trans hold.symm
      carried := fun l tag h => absurd (hnew.symm.trans h) (by simp)
      waiting := fun l h => (ok p).waiting l (by rw [hwaiting]; exact List.mem_cons_of_mem _ h)
      once := by
        have honce := (ok p).once
        rwa [hwaiting, List.filter_cons_of_neg (by simp)] at honce }

/-- A query begins to wait (R133). -/
theorem seatsOk_awaitQuery (ok : SeatsOk noRow s) (p : PortId) :
    SeatsOk noRow (s.updatePort p fun q => { q with waiting := q.waiting ++ [.query] }) := by
  refine ok.updatePort p _ ?_ fun _ _ => id
  exact
    { served := (ok p).served
      seats := fun l row hrow => ((ok p).seats l row hrow).port rfl (by simp) fun _ _ => rfl
      carried := (ok p).carried
      waiting := fun l h => (ok p).waiting l (by simpa using h)
      once := by simpa using (ok p).once }

/-! ### The end of a load (R83, R128) -/

/-- A load completes at its row and the link is free. Where the row's count may have reached the limit, `worn`, the
row is bare. -/
theorem seatsOk_loadEnded (ok : SeatsOk noRow s) {l : Letter} {tag : Byte} (good : Bool) {worn : Prop}
    (h : carriedLoad (s.port p).link = some (l, tag))
    (hworn : ¬ worn → good = false → ∀ row, s.row (rowOf p l) = some row → row.errors + 1 ≠ 16) :
    SeatsOk (fun r => r = rowOf p l ∧ worn)
      (freeLink p (s.updateRow (rowOf p l) fun row => row.complete good)) := by
  obtain ⟨hready, row, k, list, hrow, hlatch⟩ := carried_row ok h
  have hseat := ok.row hrow
  rw [portOf_rowOf, letterOf_rowOf] at hseat
  have hnot := not_waiting_of_seat hseat (by rw [hlatch]; rfl)
  have herrors : row.errors ≤ 15 := by
    have := hseat.errors_le
    have := hseat.errors_limit id
    by_contra hn
    exact this (by omega) hready
  have hchange := ok.change (r := rowOf p l) (bare' := fun r => r = rowOf p l ∧ worn)
    (f := fun row => row.complete good) (g := fun q => { q with link := none }) hrow
  simp only [portOf_rowOf, letterOf_rowOf] at hchange
  refine hchange ?_ ?_ trivial (fun m t hlink => by cases hlink) (fun m hm => .inr hm) (ok p).once
    fun _ _ hb => hb.elim
  · have hcursor := hseat.tagged k (by rw [hlatch]; rfl)
    have honline : s.control.op = .online := by
      by_contra ho
      rw [(hseat.offline_idle ho).2] at hlatch
      cases hlatch
    simp only [Row.complete, hlatch]
    cases good with
    | true =>
      exact
        { fire_iff := hseat.fire_iff
          tagged := fun j hj => by cases hj; exact hcursor
          unready_empty := fun hp => absurd hready hp
          loaded := fun _ _ _ _ => by simp
          offline_idle := fun ho => absurd honline ho
          errors_le := Nat.zero_le _
          errors_limit := fun _ he => by cases he
          waits_iff := iff_of_false Bool.false_ne_true hnot
          shifts_iff := fun j hj => by cases hj }
    | false =>
      exact
        { fire_iff := hseat.fire_iff
          tagged := fun j hj => by cases hj; exact hcursor
          unready_empty := fun hp => absurd hready hp
          loaded := fun _ _ _ _ => by simp
          offline_idle := fun ho => absurd honline ho
          errors_le := Nat.succ_le_succ herrors
          errors_limit := fun hn he => absurd he (hworn (fun hw => hn ⟨trivial, hw⟩) rfl row hrow)
          waits_iff := iff_of_false Bool.false_ne_true hnot
          shifts_iff := fun j hj => by cases hj }
  · refine fun m x hm hold => hold.port rfl Iff.rfl fun j hj => ?_
    have := (hold.shifts_iff j hj).symm.trans h
    exact absurd (congrArg Prod.fst (Option.some.inj this)) hm

theorem freeLink_state (p : PortId) (s : State) : ((freeLink p s).port p).state = (s.port p).state := by
  rw [freeLink, State.port_updatePort_same]

theorem seatsOk_completeLoad (ok : SeatsOk noRow s) {h : LineHeader} (hlink : onLink s p .load = some h)
    (st : BriefStatus) : SeatsOk noRow (completeLoad p h st s) := by
  have hbrief := seatsOk_takeBrief ok p st
  have hcarried : carriedLoad ((takeBrief p st s).port p).link = some (h.letter, h.tag) := by
    rw [(takeBrief_port p st s p).2, (onLink_eq_some hlink).2, if_pos rfl]
  obtain ⟨hready, row, k, list, hrow, hlatch⟩ := carried_row hbrief hcarried
  unfold completeLoad
  dsimp only
  split
  · exact seatsOk_faultPort_freed hbrief (fun _ hb => hb.elim) _ hready
  · split
    · have hended := seatsOk_loadEnded (worn := True) hbrief (echoMatches h st) hcarried fun hn => absurd trivial hn
      refine seatsOk_faultPort hended (fun r hr => ?_) _ ((freeLink_state _ _).trans hready)
      rw [hr.1, portOf_rowOf]
    · rename_i hlimit
      refine (seatsOk_loadEnded (worn := False) hbrief (echoMatches h st) hcarried ?_).weaken fun _ hr => hr.2
      intro _ hbad x hx he
      obtain rfl := Option.some.inj (hrow.symm.trans hx)
      refine hlimit ⟨hbad, ?_⟩
      have hafter : (freeLink p ((takeBrief p st s).updateRow (rowOf p h.letter) fun row =>
          row.complete (echoMatches h st))).row (rowOf p h.letter) = some (row.complete (echoMatches h st)) :=
        (State.row_updateRow_same _ _ _).trans (by rw [hrow, Option.map_some])
      rw [atLimit, hafter, hbad]
      simp [Row.complete, hlatch, Config.transferLimit, he]

end

end Sys2Proof.Machine
end

section
/-! PROOF. Rows and ports: the operating states, the probes and the recovery of a port, and every command. -/

namespace Sys2Proof.Machine

/-! ### A part without row channels -/

section
variable {s t : State}

theorem no_rows (h : OperatingOk s) (hop : s.control.op = .setup ∨ s.control.op = .starting) (r : RowId) :
    s.row r = none := by
  have hexist := h.rows_exist r
  rw [← Option.not_isSome_iff_eq_none, hexist]
  rcases hop with hop | hop <;> simp [hop]

theorem no_rows_op (ok : SeatsOk noRow s) (hrows : ∀ r, s.row r = none) (p : PortId) :
    carriedLoad (s.port p).link = none ∧ ∀ l, Requester.shift l ∉ (s.port p).waiting := by
  refine ⟨Option.eq_none_iff_forall_ne_some.mpr ?_, fun l hm => ?_⟩
  · rintro ⟨l, tag⟩ h
    obtain ⟨row, -, hrow, -⟩ := (ok p).carried l tag h
    rw [hrows] at hrow
    cases hrow
  · have := (ok p).waiting l hm
    rw [hrows] at this
    cases this

/-- Without row channels the ports must only carry no load and let none wait. -/
theorem seatsOk_of_no_rows (hrows : ∀ r, t.row r = none)
    (hserved : ∀ p : PortId, (entry t.geometry.heads p).isSome = true → (t.port p).state ≠ .off)
    (hports : ∀ p : PortId, carriedLoad (t.port p).link = none ∧ ∀ l, Requester.shift l ∉ (t.port p).waiting) :
    SeatsOk noRow t := fun p =>
  { served := hserved p
    seats := fun l row hrow => by
      rw [hrows] at hrow
      cases hrow
    carried := fun l tag h => by
      rw [(hports p).1] at h
      cases h
    waiting := fun l hm => absurd hm ((hports p).2 l)
    once := by
      have hnone : (t.port p).waiting.filter (fun q => q ≠ .query) = [] := by
        refine List.filter_eq_nil_iff.mpr fun q hq => ?_
        cases q with
        | shift l => exact absurd hq ((hports p).2 l)
        | query => simp
      rw [hnone]
      exact List.nodup_nil }

/-- A part without row channels stays in order whatever its operating state. -/
theorem seatsOk_withOp (ok : SeatsOk noRow s) (hrows : ∀ r, s.row r = none) (op : OpState) :
    SeatsOk noRow (s.withOp op) :=
  seatsOk_of_no_rows hrows (fun p => (ok p).served) fun p => no_rows_op (s := s) ok hrows p

theorem seatsOk_updatePort_no_rows (ok : SeatsOk noRow s) (hrows : ∀ r, s.row r = none) (p : PortId) {f : Port → Port}
    (hf : ∀ q, (f q).state ≠ .off ∧ (f q).link = q.link ∧ (f q).waiting = q.waiting) :
    SeatsOk noRow (s.updatePort p f) := by
  refine seatsOk_of_no_rows hrows (fun x hx => ?_) fun x => ?_
  all_goals
    rw [State.port_updatePort]
    split
  · exact (hf _).1
  · exact (ok x).served hx
  · rw [(hf _).2.1, (hf _).2.2]
    exact no_rows_op ok hrows p
  · exact no_rows_op ok hrows x

/-! ### GO ONLINE (R157, R158) -/

/-- The row channels that GO ONLINE creates are idle and empty (R76). -/
theorem seatsOk_created (ok : SeatsOk noRow s) (hrows : ∀ r, s.row r = none) (motion : Motion) :
    SeatsOk noRow { s with
      control := { s.control with op := .online }, motion := motion, rows := createdRows s.geometry } := fun p => by
  obtain ⟨hlink, hwait⟩ := no_rows_op ok hrows p
  have hfresh : ∀ l row, entry (createdRows s.geometry) (rowOf p l) = some row → row = Row.fresh := by
    intro l row hrow
    rw [createdRows, entry_ofFn] at hrow
    split at hrow
    · exact (Option.some.inj hrow).symm
    · cases hrow
  exact
    { served := (ok p).served
      seats := fun l row hrow => by
        obtain rfl := hfresh l row hrow
        exact
          { fire_iff := rfl
            tagged := fun k hk => by cases hk
            unready_empty := fun _ => rfl
            loaded := fun _ _ _ h => by cases h
            offline_idle := fun _ => ⟨rfl, rfl⟩
            errors_le := Nat.zero_le _
            errors_limit := fun _ h => by cases h
            waits_iff := iff_of_false Bool.false_ne_true (hwait l)
            shifts_iff := fun k hk => by cases hk }
      carried := fun l tag h => absurd (hlink.symm.trans h) (by simp)
      waiting := fun l h => absurd h (hwait l)
      once := (ok p).once }

theorem seatsOk_sendProbe (ok : SeatsOk noRow s) {p : PortId} (h : carriedLoad (s.port p).link = none) :
    SeatsOk noRow (sendProbe p s) :=
  seatsOk_relink ok h (carriedLoad_headerOnly s.geometry p .A (by decide))

theorem seatsOk_goOnlineNext (ok : SeatsOk noRow s) (hrows : ∀ r, s.row r = none) (p : PortId) :
    SeatsOk noRow (goOnlineNext p s) := by
  have hready := seatsOk_updatePort_no_rows ok hrows p (f := fun q => { q with state := .ready, cause := .none })
    fun q => ⟨by simp, rfl, rfl⟩
  unfold goOnlineNext
  dsimp only
  split
  · exact seatsOk_of_seats (seatsOk_created hready hrows s.motion.zeroed) rfl
  · rename_i q _ _
    exact seatsOk_sendProbe (seatsOk_of_seats hready rfl) (no_rows_op hready hrows q).1

theorem seatsOk_goOnlineFailure (ok : SeatsOk noRow s) (hrows : ∀ r, s.row r = none) (p : PortId) (cause : FaultCause) :
    SeatsOk noRow (goOnlineFailure p cause s) := by
  have hfault := seatsOk_updatePort_no_rows ok hrows p (f := fun q => { q with state := .fault, cause := cause })
    fun q => ⟨by simp, rfl, rfl⟩
  exact seatsOk_of_seats (seatsOk_withOp hfault hrows .setup) rfl

/-! ### Draining (R97, R159) -/

theorem teardown_row (s : State) (r : RowId) : (teardown s).row r = (s.row r).map Row.windDown := by
  rw [teardown_eq]
  exact entry_map _ _ r

theorem teardown_port (s : State) (p : PortId) : (teardown s).port p = (s.port p).withoutLoads := by
  rw [teardown_eq]
  exact entry_map _ _ p

theorem carriedLoad_withoutLoads (p : Port) : carriedLoad p.withoutLoads.link = none := by
  rw [withoutLoads_eq]
  dsimp only
  split
  · rfl
  · rename_i h
    simpa using h

/-- The teardown leaves every row idle and no load at any port (R97). -/
theorem seatsOk_teardown (ok : SeatsOk noRow s) : SeatsOk noRow (teardown (s.withOp .draining)) := fun p => by
  have hheads : (teardown (s.withOp .draining)).geometry.heads = s.geometry.heads := by rw [teardown_eq]; rfl
  have hcontrol : (teardown (s.withOp .draining)).control.op = .draining := by rw [teardown_eq]; rfl
  have hlink := carriedLoad_withoutLoads (s.port p)
  have hwait : ∀ l, Requester.shift l ∉ (s.port p).withoutLoads.waiting := fun l hm => by
    simp [Port.withoutLoads] at hm
  have hfilter : (s.port p).withoutLoads.waiting.filter (fun q => q ≠ .query) = [] := by
    simp [Port.withoutLoads, List.filter_filter]
  have hport : (teardown (s.withOp .draining)).port p = (s.port p).withoutLoads := teardown_port _ p
  rw [hheads, hcontrol, hport]
  exact
    { served := (ok p).served
      seats := fun l row hrow => by
        rw [teardown_row] at hrow
        obtain ⟨x, hx, rfl⟩ := Option.map_eq_some_iff.mp hrow
        have hseat := (ok p).seats l x hx
        exact
          { fire_iff := rfl
            tagged := fun k hk => by cases hk
            unready_empty := fun _ => rfl
            loaded := fun _ h => by cases h
            offline_idle := fun _ => ⟨rfl, rfl⟩
            errors_le := hseat.errors_le
            errors_limit := hseat.errors_limit
            waits_iff := iff_of_false Bool.false_ne_true (hwait l)
            shifts_iff := fun k hk => by cases hk }
      carried := fun l tag h => absurd (hlink.symm.trans h) (by simp)
      waiting := fun l h => absurd h (hwait l)
      once := by rw [hfilter]; exact List.nodup_nil }

/-- While no line can be loaded, no port carries one and none waits. -/
theorem no_loads_offline (ok : SeatsOk noRow s) (hop : s.control.op ≠ .online) (p : PortId) :
    carriedLoad (s.port p).link = none ∧ ∀ l, Requester.shift l ∉ (s.port p).waiting := by
  refine ⟨Option.eq_none_iff_forall_ne_some.mpr ?_, fun l hm => ?_⟩
  · rintro ⟨l, tag⟩ h
    obtain ⟨-, row, k, list, hrow, hlatch⟩ := carried_row ok h
    rw [((ok.seat hrow).offline_idle hop).2] at hlatch
    cases hlatch
  · obtain ⟨row, hrow⟩ := Option.isSome_iff_exists.mp ((ok p).waiting l hm)
    refine not_waiting_of_seat (ok.seat hrow) ?_ hm
    rw [((ok.seat hrow).offline_idle hop).2]
    rfl

theorem seatsOk_enterSetup (ok : SeatsOk noRow s) (hop : s.control.op ≠ .online) (clear : Bool) (count : Nat) :
    SeatsOk noRow (enterSetup clear count s) := by
  rw [enterSetup_eq]
  exact seatsOk_of_no_rows (fun r => entry_replicate none r) (fun p => (ok p).served)
    fun p => no_loads_offline (s := s) ok hop p

theorem seatsOk_powerOn (memory : Memory) (damage : List (Nat × Damage)) (a b g : Bool) :
    SeatsOk noRow (State.powerOn memory damage a b g) := by
  have hport : ∀ p, (State.powerOn memory damage a b g).port p = Port.reset := entry_replicate Port.reset
  refine seatsOk_of_no_rows (fun r => entry_replicate none r) (fun p hp => ?_) fun p => ?_
  · rw [State.powerOn, entry_replicate] at hp
    cases hp
  · rw [hport]
    exact ⟨rfl, fun l h => by cases h⟩

/-! ### Recovery (R96, R135) -/

/-- A row that recovers is owed nothing any more. -/
theorem seatsOk_recoverRow {bare : RowId → Prop} {r : RowId} (ok : SeatsOk (fun q => q = r ∨ bare q) s)
    (hempty : ∀ row, s.row r = some row → row.latch = .empty) (n : Nat) : SeatsOk bare (recoverRow n r s) := by
  have hreset : SeatsOk (fun q => q = r ∨ bare q) (s.updateRow r fun row => { row with errors := 0 }) := by
    refine ok.updateRow (fun _ _ => id) fun row hrow h => ⟨?_, rfl⟩
    exact { h with errors_le := Nat.zero_le _, errors_limit := fun hn => absurd (.inl rfl) hn }
  refine seatsOk_beginLoad hreset (fun row' hrow' => ?_) n
  rw [State.row_updateRow_same] at hrow'
  obtain ⟨row, hrow, rfl⟩ := Option.map_eq_some_iff.mp hrow'
  exact ⟨hempty row hrow, fun h => by cases h⟩

theorem recoverRow_row_of_ne (n : Nat) {r q : RowId} (h : r ≠ q) (s : State) : (recoverRow n r s).row q = s.row q :=
  (beginLoad_row_of_ne n h _).trans (State.row_updateRow_of_ne s _ h)

theorem seatsOk_recoverRows {rs : List RowId} (hrs : rs.Nodup) (ok : SeatsOk (· ∈ rs) s)
    (hempty : ∀ r ∈ rs, ∀ row, s.row r = some row → row.latch = .empty) (n : Nat) :
    SeatsOk noRow (recoverRows n rs s) := by
  induction rs generalizing s with
  | nil => exact ok.weaken fun _ h => by cases h
  | cons r rs ih =>
    obtain ⟨hr, hrs⟩ := List.nodup_cons.mp hrs
    have hbare : SeatsOk (fun q => q = r ∨ q ∈ rs) s := ok.weaken fun _ => List.mem_cons.mp
    refine ih hrs (seatsOk_recoverRow hbare (hempty r List.mem_cons_self) n) fun q hq row hrow => ?_
    have hne : r ≠ q := fun he => hr (he ▸ hq)
    rw [recoverRow_row_of_ne n hne] at hrow
    exact hempty q (List.mem_cons_of_mem _ hq) row hrow

theorem seatsOk_recovered (ok : SeatsOk noRow s) {p : PortId} (hfault : (s.port p).state = .fault) (env : Outside)
    (answer : BriefStatus) : SeatsOk noRow (recovered env p answer s) := by
  have hrows : ∀ r, portOf r = p → ∀ row, s.row r = some row → row.latch = .empty := fun r hr row hrow =>
    (ok.row hrow).unready_empty (by rw [hr, hfault]; decide)
  have hmem : ∀ r, r ∈ portRows env p ↔ portOf r = p := fun r => by simp [portRows, mem_rowOrder]
  have hready : SeatsOk (· ∈ portRows env p) (s.updatePort p fun q => { q with state := .ready, cause := .none }) := by
    refine ok.updatePort p _ ?_ fun _ _ h => h.elim
    refine (ok p).change_port (by simp) (fun l row hrow hseat => ?_) rfl rfl
    have hempty := hrows _ (portOf_rowOf p l) row hrow
    have hbare : rowOf p l ∈ portRows env p := (hmem _).mpr (portOf_rowOf p l)
    exact
      { hseat with
        unready_empty := fun h => absurd rfl h
        loaded := fun h => absurd hbare h
        errors_limit := fun h => absurd hbare h }
  exact seatsOk_of_seats
    (seatsOk_recoverRows ((rowOrder_nodup env).filter _) hready (fun r hr => hrows r ((hmem r).mp hr)) env.fetched) rfl

theorem seatsOk_recoveryFailed (ok : SeatsOk noRow s) {p : PortId} (hfault : (s.port p).state = .fault)
    (cause : FaultCause) (answer : Option BriefStatus) : SeatsOk noRow (recoveryFailed p cause answer s) :=
  seatsOk_of_seats
    (seatsOk_note ok p (f := fun q => { q with state := .fault, cause := cause }) ⟨hfault.symm, rfl, rfl⟩)
    rfl

end

end Sys2Proof.Machine
end

section
/-! PROOF. Rows and ports: every command keeps their agreement. -/

namespace Sys2Proof.Machine

/-- The rows agree with their ports, and a port that CLEAR HEAD FAULT works on is FAULT. -/
structure PortsOk (s : State) : Prop where
  seats : SeatsOk noRow s
  clearing : ∀ (p : PortId) (stage : ClearStage), s.link.busy = some (.clearFault p stage) → (s.port p).state = .fault

section
variable {s t : State}

theorem PortsOk.of_steady (ok : PortsOk s) (h : Steady s t) : PortsOk t where
  seats := seatsOk_of_seats ok.seats h.seats
  clearing := fun p stage hb => by
    rw [State.port_congr (congrArg Seats.ports h.seats)]
    exact ok.clearing p stage (h.clearing p stage hb)

theorem PortsOk.of_idle (h : SeatsOk noRow t) (hbusy : t.link.busy = none) : PortsOk t :=
  ⟨h, fun p stage hb => by rw [hbusy] at hb; cases hb⟩

/-- Events at rows touch no port's state and no request in progress. -/
theorem PortsOk.of_rowEvent (ok : PortsOk s) (h : RowEvent s t) (hseats : SeatsOk noRow t) : PortsOk t :=
  ⟨hseats, fun p stage hb => (h.ports p).1.trans (ok.clearing p stage (h.link ▸ hb))⟩

/-- A change at a port that leaves a FAULT port FAULT. -/
theorem PortsOk.of_faults (ok : PortsOk s) (hseats : SeatsOk noRow t) (hlink : t.link = s.link)
    (hfault : ∀ p, (s.port p).state = .fault → (t.port p).state = .fault) : PortsOk t :=
  ⟨hseats, fun p stage hb => hfault p (ok.clearing p stage (hlink ▸ hb))⟩

/-! ### Rows that act in one event -/

theorem seatsOk_arriveAll (ok : SeatsOk noRow s) (n H : Nat) (rs : List RowId) :
    SeatsOk noRow (arriveAll n H rs s) := by
  induction rs generalizing s with
  | nil => exact ok
  | cons r rs ih =>
    refine ih ?_
    unfold arrive
    split
    · exact seatsOk_fireDecision ok n r
    · exact ok

theorem seatsOk_takeUpStarts (ok : SeatsOk noRow s) (hop : s.control.op = .online) (n : Nat) (p : Page)
    (rs : List RowId) : SeatsOk noRow (takeUpStarts n p rs s) := by
  induction rs generalizing s with
  | nil => exact ok
  | cons r rs ih =>
    refine ih (seatsOk_takeUpStart ok hop n p r) ?_
    rw [(rowEvent_takeUpStart n p r s).control]
    exact hop

theorem seatsOk_leavePages (ok : SeatsOk noRow s) (hop : s.control.op = .online) (n id : Nat) (rs : List RowId) :
    SeatsOk noRow (leavePages n id rs s) := by
  induction rs generalizing s with
  | nil => exact ok
  | cons r rs ih =>
    refine ih (seatsOk_leavePage ok hop n id r) ?_
    rw [(rowEvent_leavePage n id r s).control]
    exact hop

theorem seatsOk_startPage (ok : SeatsOk noRow s) (hop : s.control.op = .online) (env : Outside) (p : Page) (T S : Nat) :
    SeatsOk noRow (startPage env p T S s) := by
  have hstarted : SeatsOk noRow (s.updatePage p.id fun q =>
      { q with state := .started, trigger := some T, start := some S }) := seatsOk_of_seats ok rfl
  exact seatsOk_of_seats (seatsOk_takeUpStarts hstarted hop env.fetched p (rowOrder env))
    (steady_evaluateStarve _).seats

theorem seatsOk_abortPage (ok : SeatsOk noRow s) (hop : s.control.op = .online) (env : Outside) (p : Page) :
    SeatsOk noRow (abortPage env p s) := by
  have hleft : SeatsOk noRow ((leavePages env.fetched p.id (rowOrder env) s).updatePage p.id Page.abort) :=
    seatsOk_of_seats (seatsOk_leavePages ok hop env.fetched p.id (rowOrder env)) rfl
  exact seatsOk_of_seats hleft ((steady_reportDone _ _).seats.trans
    ((steady_judgeChangeovers _ _).seats.trans (steady_storePageEnd _ _).seats))

/-! ### Motion -/

theorem portsOk_passOn (ok : PortsOk s) (env : Outside) (c : Option TickClass) : PortsOk (passOn env c s) := by
  have hmotion : ∀ f, PortsOk (s.updateMotion f) := fun f => { ok with seats := seatsOk_of_seats ok.seats rfl }
  unfold passOn
  split
  · split
    · unfold forwardTick
      dsimp only
      split
      · exact (hmotion _).of_rowEvent (rowEvent_arriveAll _ _ _ _) (seatsOk_arriveAll (hmotion _).seats _ _ _)
      · exact hmotion _
    · exact hmotion _
    · exact hmotion _
    · exact ok
  · exact ok

theorem portsOk_judgeTrigger (ok : PortsOk s) (hop : s.control.op = .online) (env : Outside) :
    PortsOk (judgeTrigger env s) := by
  have hmotion : ∀ f, PortsOk (s.updateMotion f) := fun f => { ok with seats := seatsOk_of_seats ok.seats rfl }
  unfold judgeTrigger
  dsimp only
  split
  · exact { ok with seats := seatsOk_of_seats ok.seats rfl }
  · split
    · exact { ok with seats := seatsOk_of_seats ok.seats rfl }
    · split
      · exact { ok with seats := seatsOk_of_seats ok.seats rfl }
      · exact (hmotion _).of_rowEvent (rowEvent_startPage _ _ _ _ _) (seatsOk_startPage (hmotion _).seats hop _ _ _ _)

/-! ### Requests -/

/-- What a judgement must show: seats in order, and a port that it begins to clear FAULT. -/
structure JudgedOk (r : State × Answer) : Prop where
  seats : SeatsOk noRow r.1
  work : ∀ p stage, r.2 = .working (.clearFault p stage) → (r.1.port p).state = .fault

theorem JudgedOk.of_done {st : Status} {fields : List Byte} (h : SeatsOk noRow t) : JudgedOk (t, .done st fields) :=
  ⟨h, by simp⟩

theorem portsOk_takeRequest {judge : State → State × Answer} (ok : PortsOk s)
    (hj : ∀ l : Link, JudgedOk (judge { s with link := l })) (code : Byte) (params : List Byte) :
    PortsOk (takeRequest code params judge s) := by
  refine takeRequest_rule (fun l hl => ok.of_steady (steady_link s hl)) (fun _ l _ => ?_) code params
  obtain ⟨hseats, hwork⟩ := hj l
  generalize judge { s with link := l } = r at hseats hwork
  obtain ⟨u, ⟨st, fields⟩ | w⟩ := r
  · exact .of_idle (seatsOk_of_seats hseats rfl) (finishWork_busy st fields u)
  · refine ⟨seatsOk_of_seats hseats rfl, fun p stage hb => ?_⟩
    cases hb
    exact hwork p stage rfl

section
variable (h : OperatingOk s) (ok : PortsOk s) (l : Link)
include ok

theorem PortsOk.link : SeatsOk noRow { s with link := l } := seatsOk_of_seats ok.seats rfl

theorem judgedOk_judgeGoOffline (ps : List Byte) : JudgedOk (judgeGoOffline ps { s with link := l }) := by
  unfold judgeGoOffline
  split
  · exact .of_done (ok.link l)
  · split
    · exact .of_done (ok.link l)
    · exact ⟨seatsOk_teardown (ok.link l), by simp [beginDraining]⟩

theorem judgedOk_judgeClear (ps : List Byte) : JudgedOk (judgeClear ps { s with link := l }) := by
  unfold judgeClear
  split
  · exact .of_done (ok.link l)
  · split
    · exact .of_done (ok.link l)
    · split
      · exact ⟨seatsOk_teardown (ok.link l), by simp [beginDraining]⟩
      · exact .of_done (seatsOk_of_seats (ok.link l) rfl)

theorem judgedOk_judgeSetMotion (ps : List Byte) : JudgedOk (judgeSetMotion ps { s with link := l }) := by
  unfold judgeSetMotion
  split
  · exact .of_done (ok.link l)
  · split
    · exact .of_done (ok.link l)
    · exact .of_done (seatsOk_of_seats (ok.link l) rfl)

theorem judgedOk_judgeOpenPage (ps : List Byte) : JudgedOk (judgeOpenPage ps { s with link := l }) := by
  unfold judgeOpenPage
  split
  · exact .of_done (ok.link l)
  · split
    · exact .of_done (ok.link l)
    · split
      · exact .of_done (ok.link l)
      · exact .of_done (seatsOk_of_seats (ok.link l) (steady_refreshCursors _).seats)

theorem judgedOk_judgeAbortPage (ps : List Byte) (env : Outside) :
    JudgedOk (judgeAbortPage ps env { s with link := l }) := by
  unfold judgeAbortPage
  split
  · exact .of_done (ok.link l)
  · rename_i hop
    split
    · exact .of_done (ok.link l)
    · split
      · exact .of_done (ok.link l)
      · split
        · exact .of_done (ok.link l)
        · exact .of_done (seatsOk_abortPage (ok.link l) (by simpa using hop) env _)

theorem judgedOk_judgeReleasePage (ps : List Byte) : JudgedOk (judgeReleasePage ps { s with link := l }) := by
  unfold judgeReleasePage
  split
  · exact .of_done (ok.link l)
  · split
    · exact .of_done (ok.link l)
    · split
      · exact .of_done (ok.link l)
      · split
        · exact .of_done (ok.link l)
        · exact .of_done (seatsOk_of_seats (ok.link l) (steady_refreshCursors _).seats)

theorem judgedOk_judgeHeadStatus (ps : List Byte) : JudgedOk (judgeHeadStatus ps { s with link := l }) := by
  unfold judgeHeadStatus
  split
  · exact .of_done (ok.link l)
  · split
    · exact .of_done (ok.link l)
    · split
      · exact .of_done (ok.link l)
      · exact ⟨seatsOk_awaitQuery (ok.link l) _, by simp⟩

theorem judgedOk_judgeClearHeadFault (ps : List Byte) : JudgedOk (judgeClearHeadFault ps { s with link := l }) := by
  unfold judgeClearHeadFault
  split
  · exact .of_done (ok.link l)
  · split
    · exact .of_done (ok.link l)
    · split
      · exact .of_done (ok.link l)
      · rename_i p _
        split
        · exact .of_done (ok.link l)
        · rename_i hfault
          have hstate : (({ s with link := l } : State).port p).state = .fault := by simpa using hfault
          refine ⟨seatsOk_relink (ok.link l) (carriedLoad_of_unready (ok.link l) (by rw [hstate]; decide))
            (carriedLoad_headerOnly _ p .B (by decide)), fun q stage hw => ?_⟩
          cases hw
          dsimp only
          rw [State.port_updatePort_same]
          exact hstate

include h

theorem judgedOk_judgeGoOnline (ps : List Byte) : JudgedOk (judgeGoOnline ps { s with link := l }) := by
  unfold judgeGoOnline
  split
  · exact .of_done (ok.link l)
  · rename_i hop
    have hrows := no_rows h (.inl (by simpa using hop))
    split
    · exact .of_done (ok.link l)
    · split
      · exact .of_done (ok.link l)
      · split
        · exact .of_done (ok.link l)
        · have hstart := seatsOk_withOp (ok.link l) hrows .starting
          exact ⟨seatsOk_sendProbe hstart (no_rows_op hstart hrows _).1, by simp⟩

theorem seatsOk_setHead (hop : s.control.op = .setup) (p : PortId) (head : Option Head) (keep : Bool) :
    SeatsOk noRow (setHead p head keep s) := by
  have hrows := no_rows h (.inl hop)
  have hports := no_rows_op ok.seats hrows
  have hport : ∀ x, (setHead p head keep s).port x = if p = x then { s.port x with
      state := if head.isSome then .ready else .off, cause := .none, last := none, warm := false } else s.port x := by
    intro x
    refine (entry_put _ p x _).trans ?_
    split
    · subst_vars
      rfl
    · rfl
  refine seatsOk_of_no_rows hrows (fun x hx => ?_) fun x => ?_
  · change (entry (put s.geometry.heads p head) x).isSome = true at hx
    rw [entry_put] at hx
    rw [hport]
    split at hx
    · rename_i hpx
      rw [if_pos hpx]
      simp [hx]
    · rename_i hpx
      rw [if_neg hpx]
      exact (ok.seats x).served hx
  · rw [hport]
    split
    · exact hports x
    · exact hports x

theorem judgedOk_judgeDefineHead (ps : List Byte) : JudgedOk (judgeDefineHead ps { s with link := l }) := by
  have hset := fun hop p head keep => seatsOk_of_seats
    (t := setHead p head keep { s with link := l }) (seatsOk_setHead h ok hop p head keep) rfl
  unfold judgeDefineHead
  split
  · exact .of_done (ok.link l)
  · rename_i hop
    have hsetup : s.control.op = .setup := by simpa using hop
    split
    · exact .of_done (ok.link l)
    · split
      · exact .of_done (ok.link l)
      · exact .of_done (ok.link l)
      · dsimp only
        split <;> exact .of_done (hset hsetup _ _ _)

end

/-! ### Probes and queries -/

theorem probing_cases {p : PortId} {w : Work} (h : probing s p = some w) :
    (onLink s p .probe).isSome = true ∧ s.link.busy = some w ∧ (w = .goOnline p ∨ w = .clearFault p .probe) := by
  unfold probing at h
  split at h
  · rename_i hlink hbusy
    split at h
    · cases h
      subst_vars
      exact ⟨by rw [hlink]; rfl, hbusy, .inl rfl⟩
    · cases h
  · rename_i hlink hbusy
    split at h
    · cases h
      subst_vars
      exact ⟨by rw [hlink]; rfl, hbusy, .inr rfl⟩
    · cases h
  · cases h

theorem starting_of_goOnline (h : OperatingOk s) {p : PortId} (hb : s.link.busy = some (.goOnline p)) :
    s.control.op = .starting := by
  have := h.work
  simpa [workFits, hb, Work.fits] using this

/-- A probe's outcome, once the link is free again: `u` is the part then. -/
theorem portsOk_endProbe (h : OperatingOk s) (ok : PortsOk s) {p : PortId} {w : Work} (hw : probing s p = some w)
    {u : State} (hu : SeatsOk noRow u) (hrows : u.rows = s.rows) (hstate : (u.port p).state = (s.port p).state)
    (env : Outside) (cause : Option FaultCause) (answer : Option BriefStatus)
    (hanswer : cause = none → answer.isSome = true) :
    PortsOk (endProbe env p w cause answer u) := by
  obtain ⟨-, hbusy, rfl | rfl⟩ := probing_cases hw
  · have hnone : ∀ r, u.row r = none := fun r => by
      rw [State.row_congr hrows]
      exact no_rows h (.inr (starting_of_goOnline h hbusy)) r
    cases cause with
    | some c => exact .of_idle (seatsOk_goOnlineFailure hu hnone p c) (finishWork_busy _ _ _)
    | none =>
      refine ⟨seatsOk_goOnlineNext hu hnone p, fun q stage hb => ?_⟩
      change (goOnlineNext p u).link.busy = _ at hb
      unfold goOnlineNext at hb
      dsimp only at hb
      split at hb
      · rw [goOnlineSuccess, finishWork_busy] at hb
        cases hb
      · cases hb
  · have hfault : (u.port p).state = .fault := hstate.trans (ok.clearing p _ hbusy)
    cases cause with
    | some c => exact .of_idle (seatsOk_recoveryFailed hu hfault c answer) (finishWork_busy _ _ _)
    | none =>
      obtain ⟨st, rfl⟩ := Option.isSome_iff_exists.mp (hanswer rfl)
      exact .of_idle (seatsOk_recovered hu hfault env st) (finishWork_busy _ _ _)

theorem updatePort_port_state (s : State) (p x : PortId) {f : Port → Port}
    (hf : (f (s.port p)).state = (s.port p).state) : ((s.updatePort p f).port x).state = (s.port x).state := by
  rw [State.port_updatePort]
  split
  · subst_vars
    exact hf
  · rfl

theorem freeLink_port_state (p x : PortId) (s : State) : ((freeLink p s).port x).state = (s.port x).state :=
  updatePort_port_state s p x rfl

theorem portsOk_probeAnswer (h : OperatingOk s) (ok : PortsOk s) (p : PortId) (st : BriefStatus) (env : Outside) :
    ∀ t, execProbeAnswer p st env s = .next t → PortsOk t := by
  rintro _ ⟨⟩
  have hupset := ok.of_steady (steady_upset env.upsets s)
  split
  · rename_i w hw
    split
    · obtain ⟨hrows, -⟩ := takeBrief_frame p st (upset env.upsets s)
      have hport := takeBrief_port p st (upset env.upsets s) p
      have hfree : carriedLoad ((takeBrief p st (upset env.upsets s)).port p).link = none := by
        rw [hport.2]
        exact carriedLoad_of_onLink (s := s) (probing_cases hw).1 (by decide)
      refine portsOk_endProbe h ok hw (seatsOk_freeLink (seatsOk_takeBrief hupset.seats p st) hfree) hrows
        ((freeLink_state p _).trans hport.1) env _ _ fun _ => rfl
    · exact hupset
  · exact hupset

theorem portsOk_probeTimeout (h : OperatingOk s) (ok : PortsOk s) (p : PortId) :
    ∀ t, execProbeTimeout p s = .next t → PortsOk t := by
  rintro _ ⟨⟩
  split
  · rename_i w hw
    have hfree := carriedLoad_of_onLink (probing_cases hw).1 (by decide)
    exact portsOk_endProbe h ok hw (seatsOk_freeLink ok.seats hfree) rfl (freeLink_state p s) _ _ _
      fun hn => by cases hn
  · exact ok

theorem portsOk_endQuery (ok : PortsOk s) {p : PortId} (hquery : querying s p = true) (answer : Option QueryReply) :
    PortsOk (endQuery p answer s) := by
  have hlink : (onLink s p .query).isSome = true := by
    simp only [querying, Bool.and_eq_true] at hquery
    exact hquery.1
  have hfree : SeatsOk noRow (freeLink p s) := seatsOk_freeLink ok.seats (carriedLoad_of_onLink hlink (by decide))
  have hfault : ∀ cause, SeatsOk noRow (faultPort p cause (freeLink p s)) := fun cause => by
    by_cases hready : ((freeLink p s).port p).state = .ready
    · exact seatsOk_faultPort hfree (fun _ hb => hb.elim) cause hready
    · rwa [faultPort, if_neg hready]
  unfold endQuery
  dsimp only
  refine .of_idle (seatsOk_of_seats ?_ rfl) (finishWork_busy _ _ _)
  split
  · split
    · exact hfault _
    · exact hfree
  · exact hfault _

/-- The reset is over and the recovery probe is sent, by a part that differs from s in nothing that matters here. -/
theorem portsOk_sendRecoveryProbe (ok : PortsOk s) {p : PortId} (hreset : resetting s p = true) {u : State}
    (hu : SeatsOk noRow u) (hport : (u.port p).state = (s.port p).state ∧ (u.port p).link = (s.port p).link) :
    PortsOk (sendRecoveryProbe p u) := by
  simp only [resetting, Bool.and_eq_true, decide_eq_true_eq] at hreset
  have hfree : carriedLoad (u.port p).link = none := by
    rw [hport.2]
    exact carriedLoad_of_onLink hreset.1 (by decide)
  refine ⟨seatsOk_sendProbe (seatsOk_of_seats hu rfl) hfree, fun q stage hb => ?_⟩
  obtain ⟨rfl, -⟩ : p = q ∧ ClearStage.probe = stage := by simpa using Option.some.inj hb
  rw [sendRecoveryProbe, sendProbe, State.port_updatePort_same]
  exact hport.1.trans (ok.clearing p _ hreset.2)

/-! ### Loads -/

theorem endAssembly_link (query : Bool) (r : RowId) (s : State) :
    (endAssembly query r s).link = s.link ∧ ∀ p, ((endAssembly query r s).port p).state = (s.port p).state := by
  have hfetch := fun n => rowEvent_fetchWords n r s
  unfold endAssembly
  split
  · dsimp only
    split
    · refine ⟨(hfetch _).link, fun p => ?_⟩
      rw [State.port_updatePort]
      split
      · subst_vars
        exact ((hfetch _).ports _).1
      · exact ((hfetch _).ports _).1
    · exact ⟨(hfetch _).link, fun p => ((hfetch _).ports p).1⟩
  · exact ⟨rfl, fun _ => rfl⟩

theorem portsOk_endAssembly (ok : PortsOk s) (query : Bool) (r : RowId) : PortsOk (endAssembly query r s) :=
  ok.of_faults (seatsOk_endAssembly ok.seats query r) (endAssembly_link query r s).1 fun p h =>
    ((endAssembly_link query r s).2 p).trans h

theorem portsOk_assemblyEnd (ok : PortsOk s) (p : PortId) (rowA rowB : Bool) (env : AssemblyMoment) :
    ∀ t, execAssemblyEnd p rowA rowB env s = .next t → PortsOk t := by
  rintro _ ⟨⟩
  have hA : PortsOk (if rowA then endAssembly env.query (rowOf p .A) (upset env.upsets s) else upset env.upsets s) := by
    have hupset := ok.of_steady (steady_upset env.upsets s)
    split
    · exact portsOk_endAssembly hupset _ _
    · exact hupset
  split
  · exact portsOk_endAssembly hA _ _
  · exact hA

theorem portsOk_linkGrant (ok : PortsOk s) (p : PortId) : ∀ t, execLinkGrant p s = .next t → PortsOk t := by
  rintro _ ⟨⟩
  split
  · rename_i l rest hlink hwaiting
    refine ok.of_faults (seatsOk_grantShift ok.seats hlink hwaiting) ?_ fun x h => ?_
    all_goals unfold grantShift; split
    · rfl
    · rfl
    · rw [updatePort_port_state]
      · exact h
      · rfl
    · rw [updatePort_port_state]
      · exact h
      · rfl
  · rename_i rest hlink hwaiting
    refine ok.of_faults (seatsOk_grantQuery ok.seats hlink hwaiting) rfl fun x h => ?_
    rw [updatePort_port_state]
    · exact h
    · rfl
  · exact ok

theorem completeLoad_keeps_fault (p : PortId) (h : LineHeader) (st : BriefStatus) (s : State) :
    (completeLoad p h st s).link = s.link ∧
      ∀ x, (s.port x).state = .fault → ((completeLoad p h st s).port x).state = .fault := by
  have hlink := (takeBrief_frame p st s).2.2.1
  have hbrief : ∀ x, (s.port x).state = .fault → ((takeBrief p st s).port x).state = .fault := fun x hx =>
    (takeBrief_port p st s x).1.trans hx
  unfold completeLoad
  dsimp only
  split
  · exact ⟨(faultPort_busy p _ _).trans hlink, fun x hx =>
      (freeLink_port_state p x _).trans (faultPort_keeps_fault _ (hbrief x hx))⟩
  · split
    · exact ⟨(faultPort_busy p _ _).trans hlink, fun x hx =>
        faultPort_keeps_fault _ ((freeLink_port_state p x _).trans (hbrief x hx))⟩
    · exact ⟨hlink, fun x hx => (freeLink_port_state p x _).trans (hbrief x hx)⟩

theorem portsOk_loadCompletion (ok : PortsOk s) (p : PortId) (st : BriefStatus) :
    ∀ t, execLoadCompletion p st s = .next t → PortsOk t := by
  rintro _ ⟨⟩
  split
  · rename_i h hlink
    exact ok.of_faults (seatsOk_completeLoad ok.seats hlink st) (completeLoad_keeps_fault p h st s).1
      (completeLoad_keeps_fault p h st s).2
  · exact ok

theorem portsOk_loadNoAnswer (ok : PortsOk s) (p : PortId) : ∀ t, execLoadNoAnswer p s = .next t → PortsOk t := by
  rintro _ ⟨⟩
  split
  · rename_i h hlink
    have hcarried : carriedLoad (s.port p).link = some (h.letter, h.tag) := by
      rw [(onLink_eq_some hlink).2, if_pos rfl]
    have hready := (carried_row ok.seats hcarried).1
    exact ok.of_faults (seatsOk_faultPort_freed ok.seats (fun _ hb => hb.elim) _ hready) (faultPort_busy p _ s)
      fun x hx => (freeLink_port_state p x _).trans (faultPort_keeps_fault _ hx)
  · exact ok

/-! ### All commands -/

/-- Every command keeps the rows in agreement with their ports. -/
theorem exec_portsOk {c : Instr} (h : OperatingOk s) (ok : PortsOk s) (hexec : exec c s = .next t) : PortsOk t := by
  cases hs : stirs c with
  | false => exact ok.of_steady (steady_exec hs hexec)
  | true =>
    cases c with
    | powerOnReset a b g =>
      obtain rfl := Host.Outcome.next.inj hexec
      exact .of_idle (seatsOk_of_seats (seatsOk_powerOn s.store.memory s.store.damage a b g) rfl) rfl
    | encoderChange a b env =>
      obtain rfl := Host.Outcome.next.inj hexec
      refine portsOk_passOn ?_ env _
      exact { ok with seats := seatsOk_of_seats ok.seats rfl }
    | triggerEdge level env =>
      obtain rfl := Host.Outcome.next.inj hexec
      have hfollowed : PortsOk ((upset env.upsets s).updateMotion fun m => { m with triggerLevel := level }) :=
        { ok with seats := seatsOk_of_seats ok.seats rfl }
      split
      · rename_i hedge
        exact portsOk_judgeTrigger hfollowed hedge.1 env
      · exact hfollowed
    | assemblyEnd port rowA rowB env => exact portsOk_assemblyEnd ok port rowA rowB env t hexec
    | linkGrant port => exact portsOk_linkGrant ok port t hexec
    | loadCompletion port st => exact portsOk_loadCompletion ok port st t hexec
    | loadNoAnswer port => exact portsOk_loadNoAnswer ok port t hexec
    | playCompletion row =>
      obtain rfl := Host.Outcome.next.inj hexec
      exact { ok with
        seats := ok.seats.updateRow (fun _ _ => id) fun _ _ h => ⟨{ h with }, rfl⟩ }
    | probeAnswer port st env => exact portsOk_probeAnswer h ok port st env t hexec
    | probeTimeout port => exact portsOk_probeTimeout h ok port t hexec
    | goOnline ps =>
      obtain rfl := Host.Outcome.next.inj hexec
      exact portsOk_takeRequest ok (fun l => judgedOk_judgeGoOnline h ok l ps) _ ps
    | goOffline ps =>
      obtain rfl := Host.Outcome.next.inj hexec
      exact portsOk_takeRequest ok (fun l => judgedOk_judgeGoOffline ok l ps) _ ps
    | clear ps =>
      obtain rfl := Host.Outcome.next.inj hexec
      exact portsOk_takeRequest ok (fun l => judgedOk_judgeClear ok l ps) _ ps
    | drainComplete =>
      obtain rfl := Host.Outcome.next.inj hexec
      split
      · rename_i clear count hbusy
        split
        · have hop : s.control.op ≠ .online := by
            have := h.work
            simp only [workFits, hbusy, Work.fits, decide_eq_true_eq] at this
            rw [this]
            decide
          exact .of_idle (seatsOk_enterSetup ok.seats hop clear count) (finishWork_busy _ _ _)
        · exact ok
      · exact ok
    | defineHead ps =>
      obtain rfl := Host.Outcome.next.inj hexec
      exact portsOk_takeRequest ok (fun l => judgedOk_judgeDefineHead h ok l ps) _ ps
    | setMotion ps =>
      obtain rfl := Host.Outcome.next.inj hexec
      exact portsOk_takeRequest ok (fun l => judgedOk_judgeSetMotion ok l ps) _ ps
    | openPage ps =>
      obtain rfl := Host.Outcome.next.inj hexec
      exact portsOk_takeRequest ok (fun l => judgedOk_judgeOpenPage ok l ps) _ ps
    | abortPage ps env =>
      obtain rfl := Host.Outcome.next.inj hexec
      have hupset := ok.of_steady (steady_upset env.upsets s)
      exact portsOk_takeRequest hupset (fun l => judgedOk_judgeAbortPage hupset l ps env) _ ps
    | releasePage ps =>
      obtain rfl := Host.Outcome.next.inj hexec
      exact portsOk_takeRequest ok (fun l => judgedOk_judgeReleasePage ok l ps) _ ps
    | headStatus ps =>
      obtain rfl := Host.Outcome.next.inj hexec
      exact portsOk_takeRequest ok (fun l => judgedOk_judgeHeadStatus ok l ps) _ ps
    | clearHeadFault ps =>
      obtain rfl := Host.Outcome.next.inj hexec
      exact portsOk_takeRequest ok (fun l => judgedOk_judgeClearHeadFault ok l ps) _ ps
    | queryAnswer port answer =>
      obtain rfl := Host.Outcome.next.inj hexec
      split
      · exact portsOk_endQuery ok (by assumption) _
      · exact ok
    | queryNoAnswer port =>
      obtain rfl := Host.Outcome.next.inj hexec
      split
      · exact portsOk_endQuery ok (by assumption) _
      · exact ok
    | resetAnswer port st =>
      obtain rfl := Host.Outcome.next.inj hexec
      split
      · exact portsOk_sendRecoveryProbe ok (by assumption) (seatsOk_takeBrief ok.seats port st)
          (takeBrief_port port st s port)
      · exact ok
    | resetTimeout port =>
      obtain rfl := Host.Outcome.next.inj hexec
      split
      · exact portsOk_sendRecoveryProbe ok (by assumption) ok.seats ⟨rfl, rfl⟩
      · exact ok
    | _ => cases hs

end

end Sys2Proof.Machine
end

section
/-! PROOF. The plan of the part (R25, R32, R35 to R45, R77, R78): the conditions of `PagesOk` and of the working rows,
cut so that a page or a row may be out of order in the middle of an event, and what they depend on. -/

namespace Sys2Proof.Machine

/-! ### Records without their rows -/

/-- `PageOk`, but for what it says of the lines that rows have decided. -/
structure PageSound (s : State) (p : Page) : Prop where
  rows : p.rows = (pageRows s p).length
  rows_pos : 0 < p.rows
  expected : ∀ b : BarId, entry p.expected b = if entry p.bars b then (p.length + 63) / 64 else 0
  blank_le : p.blank ≤ p.fired
  dropped_flag : p.flags.dropped = decide (0 < p.dropped.total)
  aborted_flag : p.flags.aborted = decide (p.abortMark ≠ .notAborted)
  triggered : p.trigger.isSome = (decide (p.state = .started) || decide (p.state = .done ∧ p.abortMark ≠ .abortedOpen))
  opened : p.state = .opened → p.start = none ∧ p.rowsFinished = 0 ∧ p.fired = 0 ∧ p.dropped.total = 0 ∧
    p.abandoned = 0 ∧ p.abortMark = .notAborted
  started : p.state = .started → p.abandoned = 0 ∧ p.abortMark = .notAborted ∧ p.rowsFinished < p.rows
  done : p.state = .done → p.rowsFinished = p.rows ∧
    p.fired + p.dropped.total + p.abandoned = p.length * p.rows ∧ (p.abortMark = .notAborted → p.abandoned = 0)
  timed : ∀ T, p.trigger = some T → p.start = some (T + s.motion.delay) ∧ T ≤ s.motion.hwm ∧
    T + lockoutLength p.length s.motion.pitch s.motion.gap ≤ s.motion.lockoutEnd

/-- The counts of a STARTED page are those of its rows. -/
structure Accounts (s : State) (p : Page) : Prop where
  decided : p.fired + p.dropped.total = ((pageRows s p).map (decidedLines s p)).sum
  finished : p.rowsFinished = ((pageRows s p).filter fun r => decidedLines s p r = p.length).length

theorem pageOk_iff {s : State} {p : Page} : PageOk s p ↔ PageSound s p ∧ (p.state = .started → Accounts s p) := by
  constructor
  · intro h
    refine ⟨{ h with started := fun hp => ?_ }, fun hp => ?_⟩
    · obtain ⟨habandoned, hmark, hlt, -⟩ := h.started hp
      exact ⟨habandoned, hmark, hlt⟩
    · obtain ⟨-, -, -, hdecided, hfinished⟩ := h.started hp
      exact ⟨hdecided, hfinished⟩
  · rintro ⟨h, k⟩
    refine { h with started := fun hp => ?_ }
    obtain ⟨habandoned, hmark, hlt⟩ := h.started hp
    exact ⟨habandoned, hmark, hlt, (k hp).decided, (k hp).finished⟩

/-- `PagesOk`, but for what it says of the lines that rows have decided. -/
structure PagesSound (s : State) : Prop where
  length_le : s.pages.length ≤ 8
  ids_distinct : (s.pages.map (·.id)).Nodup
  opened_last : s.pages.Pairwise fun p q => q.state = .started → p.state ≠ .opened
  apart : s.pages.Pairwise fun p q => ∀ T', q.trigger = some T' → p.state ≠ .opened ∧
    ∀ T, p.trigger = some T → T + lockoutLength p.length s.motion.pitch s.motion.gap ≤ T'
  records : ∀ p ∈ s.pages, PageSound s p

/-- `CursorOk`, but for where the line lies. -/
structure CursorAt (s : State) (r : RowId) (row : Row) (c : Cursor) (p : Page) (start : Nat) : Prop where
  named : p.id = c.page
  started : p.state = .started
  bar : entry p.bars (rowBar r) = true
  line : c.line < p.length
  begun : p.start = some start
  fire : row.fire = some (firePosition start (rowOffset s.geometry r) c.line s.motion.pitch)

/-- The conditions of the pages and of the working rows, but that the accounts of the pages `loose` are open and the
rows `late` may have their fire position at HWM. -/
structure PlanOk (late : RowId → Prop) (loose : Nat → Prop) (s : State) : Prop where
  sound : PagesSound s
  accounts : ∀ p ∈ s.pages, p.state = .started → ¬ loose p.id → Accounts s p
  places : ∀ (r : RowId) (row : Row) (c : Cursor), s.row r = some row → row.cursor = some c →
    ∃ p ∈ s.pages, ∃ start, CursorAt s r row c p start ∧
      (s.motion.hwm < firePosition start (rowOffset s.geometry r) c.line s.motion.pitch ∨
        late r ∧ s.motion.hwm = firePosition start (rowOffset s.geometry r) c.line s.motion.pitch)

/-- No page. -/
def noPage : Nat → Prop := fun _ => False

/-- The plan in full is what `PagesOk` and `RowsOk` say of it. -/
theorem planOk_iff {s : State} : PlanOk noRow noPage s ↔ PagesOk s ∧
    ∀ (r : RowId) (row : Row) (c : Cursor), s.row r = some row → row.cursor = some c →
      ∃ p ∈ s.pages, ∃ start, CursorOk s r row c p start := by
  constructor
  · intro ok
    refine ⟨{ ok.sound with records := fun p hp => pageOk_iff.mpr ⟨ok.sound.records p hp, fun hs => ?_⟩ },
      fun r row c hrow hc => ?_⟩
    · exact ok.accounts p hp hs id
    · obtain ⟨p, hp, start, hat, hahead⟩ := ok.places r row c hrow hc
      exact ⟨p, hp, start, { hat with ahead := hahead.resolve_right fun h => h.1 }⟩
  · rintro ⟨pages, working⟩
    refine ⟨{ pages with records := fun p hp => (pageOk_iff.mp (pages.records p hp)).1 },
      fun p hp hs _ => (pageOk_iff.mp (pages.records p hp)).2 hs, fun r row c hrow hc => ?_⟩
    obtain ⟨p, hp, start, h⟩ := working r row c hrow hc
    exact ⟨p, hp, start, { h with }, .inl h.ahead⟩

/-! ### The lines a row has decided, by its cursor -/

/-- The lines of a page that a row with this cursor has decided. -/
def decidedAt (ps : List Page) (p : Page) : Option Cursor → Nat
  | none => p.length
  | some c => if c.page = p.id then c.line else if placeOf ps p.id < placeOf ps c.page then p.length else 0

theorem decidedLines_eq (s : State) (p : Page) (r : RowId) :
    decidedLines s p r = decidedAt s.pages p ((s.row r).bind (·.cursor)) := by
  unfold decidedLines decidedAt
  split <;> simp [*]

theorem mem_pageRows {s : State} {p : Page} {r : RowId} :
    r ∈ pageRows s p ↔ (s.row r).isSome = true ∧ entry p.bars (rowBar r) = true := by
  simp [pageRows, mem_allRows]

theorem allRows_nodup : allRows.Nodup := by decide

theorem pageRows_nodup (s : State) (p : Page) : (pageRows s p).Nodup := allRows_nodup.filter _

theorem placeOf_cons (p : Page) (ps : List Page) (id : Nat) :
    placeOf (p :: ps) id = if p.id = id then 0 else placeOf ps id + 1 := by
  unfold placeOf
  rw [List.takeWhile_cons]
  by_cases h : p.id = id <;> simp [h]

theorem placeOf_congr {ps qs : List Page} (h : qs.map (·.id) = ps.map (·.id)) (id : Nat) :
    placeOf qs id = placeOf ps id := by
  induction ps generalizing qs with
  | nil =>
    obtain rfl := List.map_eq_nil_iff.mp h
    rfl
  | cons p ps ih =>
    cases qs with
    | nil => cases h
    | cons q qs =>
      obtain ⟨hid, htail⟩ := List.cons.inj h
      have hid : q.id = p.id := hid
      rw [placeOf_cons, placeOf_cons, hid, ih htail]

theorem decidedAt_congr {ps qs : List Page} (h : qs.map (·.id) = ps.map (·.id)) {p q : Page} (hid : q.id = p.id)
    (hlength : q.length = p.length) (c : Option Cursor) : decidedAt qs q c = decidedAt ps p c := by
  cases c with
  | none => exact hlength
  | some c => simp only [decidedAt, placeOf_congr h, hid, hlength]

/-! ### What the conditions depend on -/

section
variable {s t : State}

/-- Two parts in which a row has the same cursor or none, page by page and row by row. -/
structure SameRows (s t : State) : Prop where
  ids : t.pages.map (·.id) = s.pages.map (·.id)
  exists_iff : ∀ r : RowId, (t.row r).isSome = (s.row r).isSome
  cursors : ∀ r : RowId, (t.row r).bind (·.cursor) = (s.row r).bind (·.cursor)

theorem pageRows_congr (h : ∀ r : RowId, (t.row r).isSome = (s.row r).isSome) {p q : Page} (hbars : q.bars = p.bars) :
    pageRows t q = pageRows s p := by
  simp only [pageRows, h, hbars]

theorem Accounts.congr (h : SameRows s t) {p q : Page} (hid : q.id = p.id) (hbars : q.bars = p.bars)
    (hlength : q.length = p.length) (hcount : q.fired + q.dropped.total = p.fired + p.dropped.total)
    (hfinished : q.rowsFinished = p.rowsFinished) (k : Accounts s p) : Accounts t q := by
  have hdecided : decidedLines t q = decidedLines s p := funext fun r => by
    rw [decidedLines_eq, decidedLines_eq, h.cursors, decidedAt_congr h.ids hid hlength]
  have hrows := pageRows_congr h.exists_iff hbars
  exact
    { decided := by rw [hcount, hrows, hdecided, k.decided]
      finished := by rw [hfinished, hrows, hdecided, hlength, k.finished] }

/-- Motion that leaves a plan in order: the settings stand, and HWM and the lockout end fall nowhere. -/
structure MotionOn (m n : Motion) : Prop where
  pitch : n.pitch = m.pitch
  delay : n.delay = m.delay
  gap : n.gap = m.gap
  hwm : m.hwm ≤ n.hwm
  lockoutEnd : m.lockoutEnd ≤ n.lockoutEnd

theorem MotionOn.refl (m : Motion) : MotionOn m m := ⟨rfl, rfl, rfl, Nat.le_refl _, Nat.le_refl _⟩

theorem PageSound.congr {p : Page} (h : PageSound s p) (hmotion : MotionOn s.motion t.motion)
    (hrows : ∀ r : RowId, (t.row r).isSome = (s.row r).isSome) : PageSound t p :=
  { h with
    rows := h.rows.trans (by rw [pageRows_congr hrows rfl])
    timed := fun T hT => by
      obtain ⟨hstart, hle, hlock⟩ := h.timed T hT
      rw [hmotion.delay, hmotion.pitch, hmotion.gap]
      exact ⟨hstart, hle.trans hmotion.hwm, hlock.trans hmotion.lockoutEnd⟩ }

theorem pageSound_ledger {p : Page} : PageSound s p.ledger ↔ PageSound s p :=
  ⟨fun h => { h with }, fun h => { h with }⟩

theorem pageSound_of_ledger {p q : Page} (h : PageSound s p) (hq : q.ledger = p.ledger) : PageSound s q :=
  pageSound_ledger.mp (hq ▸ pageSound_ledger.mpr h)

theorem ledger_fields {p q : Page} (h : q.ledger = p.ledger) : q.id = p.id ∧ q.state = p.state ∧ q.bars = p.bars ∧
    q.length = p.length ∧ q.start = p.start ∧ q.fired + q.dropped.total = p.fired + p.dropped.total ∧
    q.rowsFinished = p.rowsFinished := by
  obtain ⟨⟩ := p
  obtain ⟨⟩ := q
  simp only [Page.ledger, Page.mk.injEq] at h
  simp [h]

theorem map_of_ledger {β : Type} (f : Page → β) (hf : ∀ p, f p.ledger = f p) {ps qs : List Page}
    (h : qs.map Page.ledger = ps.map Page.ledger) : qs.map f = ps.map f := by
  have hmap : ∀ l : List Page, (l.map Page.ledger).map f = l.map f := fun l => by simp [Function.comp_def, hf]
  rw [← hmap qs, h, hmap]

theorem pairwise_of_ledger {R : Page → Page → Prop} (hR : ∀ p q, R p.ledger q.ledger ↔ R p q) {ps qs : List Page}
    (h : qs.map Page.ledger = ps.map Page.ledger) (hp : ps.Pairwise R) : qs.Pairwise R := by
  have hmap : ∀ l : List Page, (l.map Page.ledger).Pairwise R ↔ l.Pairwise R := fun l => by
    rw [List.pairwise_map]
    exact List.Pairwise.iff fun p q => hR p q
  rw [← hmap qs, h, hmap]
  exact hp

theorem mem_of_ledger {ps qs : List Page} (h : qs.map Page.ledger = ps.map Page.ledger) {q : Page} (hq : q ∈ qs) :
    ∃ p ∈ ps, q.ledger = p.ledger := by
  have hmem : q.ledger ∈ ps.map Page.ledger := h ▸ List.mem_map_of_mem hq
  obtain ⟨p, hp, he⟩ := List.mem_map.mp hmem
  exact ⟨p, hp, he.symm⟩

/-- Pages alike but for the marks of the Stripe Store and the loads are in order alike. -/
theorem PagesSound.congr (h : PagesSound s) (hpages : t.pages.map Page.ledger = s.pages.map Page.ledger)
    (hmotion : MotionOn s.motion t.motion) (hrows : ∀ r : RowId, (t.row r).isSome = (s.row r).isSome) :
    PagesSound t where
  length_le := by
    have := congrArg List.length hpages
    rw [List.length_map, List.length_map] at this
    rw [this]
    exact h.length_le
  ids_distinct := by
    rw [map_of_ledger (fun p => p.id) (fun _ => rfl) hpages]
    exact h.ids_distinct
  opened_last := pairwise_of_ledger (fun _ _ => Iff.rfl) hpages h.opened_last
  apart := by
    rw [hmotion.pitch, hmotion.gap]
    exact pairwise_of_ledger (fun _ _ => Iff.rfl) hpages h.apart
  records := fun q hq => by
    obtain ⟨p, hp, he⟩ := mem_of_ledger hpages hq
    exact pageSound_of_ledger ((h.records p hp).congr hmotion hrows) he

theorem rowOffset_congr (h : t.geometry.heads = s.geometry.heads) (r : RowId) :
    rowOffset t.geometry r = rowOffset s.geometry r := by
  simp only [rowOffset, h]

theorem place_eq {r : RowId} {row : Row} (h : (t.row r).map Row.place = (s.row r).map Row.place)
    (hrow : t.row r = some row) : ∃ x, s.row r = some x ∧ x.cursor = row.cursor ∧ x.fire = row.fire := by
  rw [hrow, Option.map_some] at h
  obtain ⟨x, hx, he⟩ := Option.map_eq_some_iff.mp h.symm
  exact ⟨x, hx, congrArg Prod.fst he, congrArg Prod.snd he⟩

theorem cursor_of_place {r : RowId} (h : (t.row r).map Row.place = (s.row r).map Row.place) :
    (t.row r).isSome = (s.row r).isSome ∧ (t.row r).bind (·.cursor) = (s.row r).bind (·.cursor) := by
  cases ht : t.row r with
  | none =>
    rw [ht, Option.map_none] at h
    rw [Option.map_eq_none_iff.mp h.symm]
    exact ⟨rfl, rfl⟩
  | some row =>
    obtain ⟨x, hx, hc, -⟩ := place_eq h ht
    rw [hx]
    exact ⟨rfl, hc.symm⟩

theorem sameRows_of_schedule (h : t.schedule = s.schedule) : SameRows s t := by
  have hplace : ∀ r, (t.row r).map Row.place = (s.row r).map Row.place := congrFun (congrArg Schedule.places h)
  exact
    { ids := map_of_ledger (fun p => p.id) (fun _ => rfl) (congrArg Schedule.pages h)
      exists_iff := fun r => (cursor_of_place (hplace r)).1
      cursors := fun r => (cursor_of_place (hplace r)).2 }

variable {late late' : RowId → Prop} {loose loose' : Nat → Prop}

/-- Parts with one schedule have one plan. -/
theorem PlanOk.of_schedule (ok : PlanOk late loose s) (h : t.schedule = s.schedule) : PlanOk late loose t := by
  have hmotion : t.motion = s.motion := congrArg Schedule.motion h
  have hheads : t.geometry.heads = s.geometry.heads := congrArg Schedule.heads h
  have hpages : t.pages.map Page.ledger = s.pages.map Page.ledger := congrArg Schedule.pages h
  have hplace : ∀ r, (t.row r).map Row.place = (s.row r).map Row.place := congrFun (congrArg Schedule.places h)
  have hsame := sameRows_of_schedule h
  refine ⟨ok.sound.congr hpages (hmotion ▸ MotionOn.refl _) hsame.exists_iff, fun q hq hs hn => ?_,
    fun r row c hrow hc => ?_⟩
  · obtain ⟨p, hp, he⟩ := mem_of_ledger hpages hq
    obtain ⟨hid, hstate, hbars, hlength, -, hcount, hfinished⟩ := ledger_fields he
    exact (ok.accounts p hp (hstate ▸ hs) (hid ▸ hn)).congr hsame hid hbars hlength hcount hfinished
  · obtain ⟨x, hx, hcursor, hfire⟩ := place_eq (hplace r) hrow
    obtain ⟨p, hp, start, hat, hahead⟩ := ok.places r x c hx (hcursor.trans hc)
    obtain ⟨q, hq, he⟩ := mem_of_ledger hpages.symm hp
    obtain ⟨hid, hstate, hbars, hlength, hstart, -, -⟩ := ledger_fields he
    rw [hmotion, rowOffset_congr hheads]
    refine ⟨q, hq, start, ?_, hahead⟩
    exact
      { named := hid.symm ▸ hat.named
        started := hstate.symm ▸ hat.started
        bar := hbars.symm ▸ hat.bar
        line := hlength.symm ▸ hat.line
        begun := hstart.symm ▸ hat.begun
        fire := by rw [← hfire, hmotion, rowOffset_congr hheads, hat.fire] }

theorem PlanOk.weaken (ok : PlanOk late loose s) (hlate : ∀ r, late r → late' r) (hloose : ∀ id, loose id → loose' id) :
    PlanOk late' loose' s :=
  { ok with
    accounts := fun p hp hs hn => ok.accounts p hp hs fun h => hn (hloose _ h)
    places := fun r row c hrow hc => by
      obtain ⟨p, hp, start, hat, hahead⟩ := ok.places r row c hrow hc
      exact ⟨p, hp, start, hat, hahead.imp id fun h => ⟨hlate r h.1, h.2⟩⟩ }

/-- A part with no pages and no row at work has a plan in order. -/
theorem planOk_of_no_work (hpages : s.pages = []) (hrows : ∀ r, (s.row r).bind (·.cursor) = none) :
    PlanOk late loose s where
  sound := by constructor <;> simp [hpages]
  accounts := by simp [hpages]
  places := fun r row c hrow hc => by
    have := hrows r
    rw [hrow, Option.bind_some, hc] at this
    cases this

end

end Sys2Proof.Machine
end

section
/-! PROOF. The plan: the order of the page queue, the lines a row has decided when it goes from page to page (R92, R93,
R94), the accounts when one row's lines change (R40, R42, R45), and the order of fire positions (R39, R78). -/

namespace Sys2Proof.Machine

/-! ### Places in the page queue -/

theorem placeOf_append_lt {front rest : List Page} {q : Page} (hq : q ∈ front) :
    placeOf (front ++ rest) q.id < front.length := by
  induction front with
  | nil => cases hq
  | cons x front ih =>
    rw [List.cons_append, placeOf_cons, List.length_cons]
    split
    · exact Nat.succ_pos _
    · rename_i hne
      refine Nat.succ_lt_succ (ih ((List.mem_cons.mp hq).resolve_left ?_))
      rintro rfl
      exact hne rfl

section
variable {front back : List Page} {p : Page} (hids : ((front ++ p :: back).map (·.id)).Nodup)
include hids

theorem placeOf_at : placeOf (front ++ p :: back) p.id = front.length :=
  placeOf_append (front_ids hids)

theorem placeOf_behind {q : Page} (hq : q ∈ back) : front.length < placeOf (front ++ p :: back) q.id := by
  obtain ⟨as, bs, rfl⟩ := List.append_of_mem hq
  have hids' : (((front ++ p :: as) ++ q :: bs).map (·.id)).Nodup := by simpa using hids
  have hplace := placeOf_at hids'
  rw [List.append_assoc] at hplace
  rw [← List.cons_append, hplace, List.length_append, List.length_cons]
  omega

theorem behind_ids {q : Page} (hq : q ∈ back) : q.id ≠ p.id := back_ids hids q hq

/-! ### Rows that go from page to page -/

/-- A row that leaves a page for the next STARTED page of its bar, or for none, has decided as many lines of any other
STARTED page of its bar as before. -/
theorem decidedAt_next {b : BarId} {q : Page} (hq : q ∈ front ++ p :: back) (hne : q.id ≠ p.id)
    (hstate : q.state = .started) (hbar : entry q.bars b = true) {c : Cursor} (hc : c.page = p.id) :
    decidedAt (front ++ p :: back) q (takenUpCursor (back.find? fun x => x.state = .started && entry x.bars b)) =
      decidedAt (front ++ p :: back) q (some c) := by
  have hold : decidedAt (front ++ p :: back) q (some c) =
      if placeOf (front ++ p :: back) q.id < front.length then q.length else 0 := by
    rw [decidedAt, hc, if_neg hne.symm, placeOf_at hids]
  rw [hold]
  cases hnext : back.find? fun x => x.state = .started && entry x.bars b with
  | none =>
    rcases List.mem_append.mp hq with hfront | hq
    · rw [if_pos (placeOf_append_lt hfront)]
      rfl
    · rcases List.mem_cons.mp hq with rfl | hback
      · exact absurd rfl hne
      · have := List.find?_eq_none.mp hnext q hback
        simp [hstate, hbar] at this
  | some x =>
    obtain ⟨-, as, bs, rfl, has⟩ := List.find?_eq_some_iff_append.mp hnext
    have hids' : (((front ++ p :: as) ++ x :: bs).map (·.id)).Nodup := by simpa using hids
    have hx : placeOf (front ++ p :: (as ++ x :: bs)) x.id = (front ++ p :: as).length := by
      have := placeOf_at hids'
      rwa [List.append_assoc, List.cons_append] at this
    have hlen : front.length < (front ++ p :: as).length := by simp
    simp only [takenUpCursor, Option.map_some, decidedAt, hx]
    rcases List.mem_append.mp hq with hfront | hq
    · have hplace := placeOf_append_lt (rest := p :: (as ++ x :: bs)) hfront
      have hqx : x.id ≠ q.id := by
        rintro he
        rw [← he, hx] at hplace
        omega
      rw [if_neg hqx, if_pos hplace, if_pos (hplace.trans hlen)]
    · rcases List.mem_cons.mp hq with rfl | hback
      · exact absurd rfl hne
      · have hlate : ¬ placeOf (front ++ p :: (as ++ x :: bs)) q.id < front.length :=
          Nat.not_lt.mpr (placeOf_behind hids hback).le
        rw [if_neg hlate]
        rcases List.mem_append.mp hback with hq | hq
        · have := has q hq
          simp [hstate, hbar] at this
        · rcases List.mem_cons.mp hq with rfl | hq
          · rw [if_pos rfl]
          · have hplace := placeOf_behind hids' hq
            rw [List.append_assoc, List.cons_append] at hplace
            rw [if_neg (behind_ids hids' hq).symm, if_neg (Nat.not_lt.mpr hplace.le)]

end

/-- A row that goes from line to line of a page has decided no line more of another. -/
theorem decidedAt_elsewhere {ps : List Page} {q : Page} {page i j : Nat} (hne : q.id ≠ page) :
    decidedAt ps q (some { page := page, line := i }) = decidedAt ps q (some { page := page, line := j }) := by
  simp only [decidedAt, if_neg hne.symm]

/-- Behind its last line a row has decided all lines of a page. -/
theorem decidedAt_left {front back : List Page} {p : Page} (hids : ((front ++ p :: back).map (·.id)).Nodup)
    {next : Option Page} (hnext : ∀ x, next = some x → x ∈ back) :
    decidedAt (front ++ p :: back) p (takenUpCursor next) = p.length := by
  cases next with
  | none => rfl
  | some x =>
    have hx := hnext x rfl
    simp only [takenUpCursor, Option.map_some, decidedAt]
    rw [if_neg (behind_ids hids hx), placeOf_at hids, if_pos (placeOf_behind hids hx)]

/-! ### Accounts -/

/-- A sum over rows in which one row's share changes. -/
theorem sum_map_change {l : List RowId} (hl : l.Nodup) {r : RowId} (hr : r ∈ l) {f g : RowId → Nat}
    (h : ∀ q ∈ l, q ≠ r → g q = f q) : (l.map g).sum + f r = (l.map f).sum + g r := by
  obtain ⟨as, bs, rfl⟩ := List.append_of_mem hr
  obtain ⟨hnot, -⟩ := List.nodup_cons.mp (List.nodup_middle.mp hl)
  have has : ∀ q ∈ as, q ≠ r := fun q hq he => hnot (List.mem_append_left _ (he ▸ hq))
  have hbs : ∀ q ∈ bs, q ≠ r := fun q hq he => hnot (List.mem_append_right _ (he ▸ hq))
  have hleft : as.map g = as.map f := List.map_congr_left fun q hq => h q (by simp [hq]) (has q hq)
  have hright : bs.map g = bs.map f := List.map_congr_left fun q hq => h q (by simp [hq]) (hbs q hq)
  simp only [List.map_append, List.map_cons, List.sum_append, List.sum_cons, hleft, hright]
  omega

theorem length_filter_eq_sum (l : List RowId) (P : RowId → Prop) [DecidablePred P] :
    (l.filter fun r => P r).length = (l.map fun r => if P r then 1 else 0).sum := by
  induction l with
  | nil => rfl
  | cons r l ih => by_cases h : P r <;> simp [h, ih, Nat.add_comm]

section
variable {s t : State} {p q : Page}

theorem Accounts.of_decided (k : Accounts s p) (hrows : pageRows t q = pageRows s p)
    (hdecided : ∀ r ∈ pageRows s p, decidedLines t q r = decidedLines s p r) (hlength : q.length = p.length)
    (hcount : q.fired + q.dropped.total = p.fired + p.dropped.total) (hfinished : q.rowsFinished = p.rowsFinished) :
    Accounts t q where
  decided := by rw [hcount, k.decided, hrows, List.map_congr_left hdecided]
  finished := by
    rw [hfinished, k.finished, hrows, hlength]
    exact congrArg List.length (List.filter_congr fun r hr => by rw [hdecided r hr])

/-- The accounts after the lines that one row has decided have changed. -/
theorem Accounts.share (k : Accounts s p) {r : RowId} (hr : r ∈ pageRows s p) (hrows : pageRows t q = pageRows s p)
    (hothers : ∀ x ∈ pageRows s p, x ≠ r → decidedLines t q x = decidedLines s p x) (hlength : q.length = p.length)
    (hcount : q.fired + q.dropped.total + decidedLines s p r = p.fired + p.dropped.total + decidedLines t q r)
    (hfinished : q.rowsFinished + (if decidedLines s p r = p.length then 1 else 0) =
      p.rowsFinished + if decidedLines t q r = p.length then 1 else 0) : Accounts t q := by
  have hsum := sum_map_change (pageRows_nodup s p) hr hothers
  have hfin := sum_map_change (pageRows_nodup s p) hr (f := fun x => if decidedLines s p x = p.length then 1 else 0)
    (g := fun x => if decidedLines t q x = p.length then 1 else 0) fun x hx hne => by
      simp only [hothers x hx hne]
  have hdecided := k.decided
  have hrowsFinished := k.finished
  rw [length_filter_eq_sum] at hrowsFinished
  constructor
  · rw [hrows]
    omega
  · rw [length_filter_eq_sum, hrows, hlength]
    omega

/-- Where all rows have finished with a page, they have decided all its lines. -/
theorem Accounts.all_decided (k : Accounts s p) (h : p.rowsFinished = (pageRows s p).length) :
    (∀ r ∈ pageRows s p, decidedLines s p r = p.length) ∧
      p.fired + p.dropped.total = p.length * (pageRows s p).length := by
  have hall : ∀ r ∈ pageRows s p, decidedLines s p r = p.length := by
    have hlen := k.finished.symm.trans h
    simpa [List.length_filter_eq_length_iff] using hlen
  refine ⟨hall, ?_⟩
  rw [k.decided, List.map_congr_left hall, List.map_const', List.sum_replicate, smul_eq_mul, Nat.mul_comm]

/-- No more lines than all are decided. -/
theorem Accounts.count_le (k : Accounts s p) (h : ∀ r ∈ pageRows s p, decidedLines s p r ≤ p.length) :
    p.fired + p.dropped.total ≤ p.length * (pageRows s p).length := by
  rw [k.decided]
  have hle := List.sum_le_card_nsmul ((pageRows s p).map (decidedLines s p)) p.length (by simpa using h)
  rw [List.length_map, smul_eq_mul] at hle
  exact hle.trans_eq (Nat.mul_comm _ _)

end

/-! ### The order of fire positions -/

/-- The next line of a page fires later. -/
theorem firePosition_next {start offset k pitch : Nat} (h : 65536 ≤ pitch) :
    firePosition start offset k pitch < firePosition start offset (k + 1) pitch := by
  unfold firePosition
  rw [Nat.succ_mul]
  omega

/-- Line 0 of a page fires later than any line of a page whose lockout it keeps (R39). -/
theorem firePosition_next_page {T T' delay offset k n pitch gap : Nat} (hgap : 1 ≤ gap) (hk : k < n)
    (h : T + lockoutLength n pitch gap ≤ T') :
    firePosition (T + delay) offset k pitch < firePosition (T' + delay) offset 0 pitch := by
  have hmul : k * pitch ≤ n * pitch := Nat.mul_le_mul_right _ hk.le
  unfold firePosition
  unfold lockoutLength at h
  omega

/-- No line fires before its page's start. -/
theorem start_le_firePosition (start offset k pitch : Nat) : start ≤ firePosition start offset k pitch :=
  Nat.le_add_right _ _

end Sys2Proof.Machine
end

section
/-! PROOF. The plan: what a change of one page's record and a change of one row's place must show, and the next place
of a row (R39, R78, R92). -/

namespace Sys2Proof.Machine

/-- The part with another page queue. -/
def State.withPages (s : State) (ps : List Page) : State := { s with pages := ps }

@[simp] theorem State.withPages_pages (s : State) (ps : List Page) : (s.withPages ps).pages = ps := rfl
@[simp] theorem State.withPages_motion (s : State) (ps : List Page) : (s.withPages ps).motion = s.motion := rfl
@[simp] theorem State.withPages_geometry (s : State) (ps : List Page) : (s.withPages ps).geometry = s.geometry := rfl
@[simp] theorem State.withPages_row (s : State) (ps : List Page) (r : RowId) : (s.withPages ps).row r = s.row r := rfl

section
variable {late late' : RowId → Prop} {loose loose' : Nat → Prop} {s : State} {front back : List Page} {p p' : Page}

/-! ### One record changed -/

theorem PagesSound.ids_at (h : PagesSound s) (hpages : s.pages = front ++ p :: back) :
    ((front ++ p :: back).map (·.id)).Nodup := hpages ▸ h.ids_distinct

/-- The pages in order after one record has changed: the new record is in order, does not open the page again, and
keeps its place among the triggers. -/
theorem PagesSound.replace (h : PagesSound s) (hpages : s.pages = front ++ p :: back) (hid : p'.id = p.id)
    (hsound : PageSound s p') (hopened : p'.state ≠ .opened)
    (hbefore : ∀ q ∈ front, p'.state = .started ∨ p'.trigger.isSome = true → q.state ≠ .opened)
    (hfront : ∀ q ∈ front, ∀ T T', q.trigger = some T → p'.trigger = some T' →
      T + lockoutLength q.length s.motion.pitch s.motion.gap ≤ T')
    (hback : ∀ q ∈ back, ∀ T T', p'.trigger = some T → q.trigger = some T' →
      T + lockoutLength p'.length s.motion.pitch s.motion.gap ≤ T') :
    PagesSound (s.withPages (front ++ p' :: back)) := by
  have hlast := h.opened_last
  have hapart := h.apart
  rw [hpages, List.pairwise_append, List.pairwise_cons] at hlast hapart
  obtain ⟨hlastFront, ⟨-, hlastBack⟩, hlastAcross⟩ := hlast
  obtain ⟨hapartFront, ⟨-, hapartBack⟩, hapartAcross⟩ := hapart
  refine
    { length_le := by
        have := h.length_le
        rw [hpages] at this
        simpa using this
      ids_distinct := by
        have := h.ids_at hpages
        simpa [hid] using this
      opened_last := ?_
      apart := ?_
      records := fun q hq => ?_ }
  · rw [State.withPages_pages, List.pairwise_append, List.pairwise_cons]
    refine ⟨hlastFront, ⟨fun _ _ _ => hopened, hlastBack⟩, fun q hq x hx => ?_⟩
    rcases List.mem_cons.mp hx with rfl | hx
    · exact fun hs => hbefore q hq (.inl hs)
    · exact hlastAcross q hq x (List.mem_cons_of_mem _ hx)
  · rw [State.withPages_pages, List.pairwise_append, List.pairwise_cons]
    refine ⟨hapartFront, ⟨fun q hq T' hT' => ⟨hopened, fun T hT => hback q hq T T' hT hT'⟩, hapartBack⟩,
      fun q hq x hx => ?_⟩
    rcases List.mem_cons.mp hx with rfl | hx
    · exact fun T' hT' => ⟨hbefore q hq (.inr (by simp [hT'])), fun T hT => hfront q hq T T' hT hT'⟩
    · exact hapartAcross q hq x (List.mem_cons_of_mem _ hx)
  · rcases List.mem_append.mp hq with hq | hq
    · exact { h.records q (hpages ▸ List.mem_append_left _ hq) with }
    · rcases List.mem_cons.mp hq with rfl | hq
      · exact { hsound with }
      · exact { h.records q (hpages ▸ List.mem_append_right _ (List.mem_cons_of_mem _ hq)) with }

/-- Most changes of a record leave its trigger and its length alone and start no page. -/
theorem PagesSound.recount (h : PagesSound s) (hpages : s.pages = front ++ p :: back) (hid : p'.id = p.id)
    (hsound : PageSound s p') (hopened : p'.state ≠ .opened) (hstarted : p'.state = .started → p.state = .started)
    (hlength : p'.length = p.length) (htrigger : p'.trigger = p.trigger) :
    PagesSound (s.withPages (front ++ p' :: back)) := by
  have hlast := h.opened_last
  have hapart := h.apart
  rw [hpages, List.pairwise_append, List.pairwise_cons] at hlast hapart
  obtain ⟨-, -, hlastAcross⟩ := hlast
  obtain ⟨-, ⟨hapartAt, -⟩, hapartAcross⟩ := hapart
  refine h.replace hpages hid hsound hopened (fun q hq hp => ?_) (fun q hq T T' hT hT' => ?_) fun q hq T T' hT hT' => ?_
  · rcases hp with hs | ht
    · exact hlastAcross q hq p List.mem_cons_self (hstarted hs)
    · obtain ⟨T', hT'⟩ := Option.isSome_iff_exists.mp ht
      exact (hapartAcross q hq p List.mem_cons_self T' (htrigger ▸ hT')).1
  · exact (hapartAcross q hq p List.mem_cons_self T' (htrigger ▸ hT')).2 T hT
  · rw [hlength]
    exact (hapartAt q hq T' hT').2 T (htrigger ▸ hT)

/-- The plan after one record has changed: the pages are in order, a row that stands on the page still does, and the
accounts of that page are given where they are not open. -/
theorem PlanOk.replace (ok : PlanOk late loose s) (hpages : s.pages = front ++ p :: back)
    (hsound : PagesSound (s.withPages (front ++ p' :: back))) (hid : p'.id = p.id) (hlength : p'.length = p.length)
    (hbars : p'.bars = p.bars)
    (haccounts : p'.state = .started → ¬ loose' p.id → Accounts (s.withPages (front ++ p' :: back)) p')
    (hloose : ∀ id, id ≠ p.id → loose id → loose' id)
    (hplace : ∀ (r : RowId) (c : Cursor), (s.row r).bind (·.cursor) = some c → c.page = p.id →
      p'.state = .started ∧ p'.start = p.start) :
    PlanOk late loose' (s.withPages (front ++ p' :: back)) := by
  have hids := ok.sound.ids_at hpages
  have hsame : SameRows s (s.withPages (front ++ p' :: back)) :=
    { ids := by simp [hpages, hid]
      exists_iff := fun _ => rfl
      cursors := fun _ => rfl }
  refine ⟨hsound, fun q hq hs hn => ?_, fun r row c hrow hc => ?_⟩
  · have hother : q ∈ s.pages → q.id ≠ p.id → Accounts (s.withPages (front ++ p' :: back)) q := fun hq hne =>
      (ok.accounts q hq hs fun hl => hn (hloose _ hne hl)).congr hsame rfl rfl rfl rfl rfl
    rcases List.mem_append.mp hq with hq | hq
    · exact hother (hpages ▸ List.mem_append_left _ hq) (front_ids hids q hq)
    · rcases List.mem_cons.mp hq with rfl | hq
      · exact haccounts hs (hid ▸ hn)
      · exact hother (hpages ▸ List.mem_append_right _ (List.mem_cons_of_mem _ hq)) (back_ids hids q hq)
  · have hrow' : s.row r = some row := hrow
    obtain ⟨q, hq, start, hat, hahead⟩ := ok.places r row c hrow hc
    rw [hpages] at hq
    by_cases hqp : q = p
    · subst hqp
      obtain ⟨hs, hstart⟩ := hplace r c (by rw [hrow', Option.bind_some, hc]) hat.named.symm
      refine ⟨p', List.mem_append_right _ List.mem_cons_self, start, ?_, hahead⟩
      exact
        { hat with
          named := hid.trans hat.named
          started := hs
          bar := hbars ▸ hat.bar
          line := hlength ▸ hat.line
          begun := hstart.trans hat.begun }
    · refine ⟨q, ?_, start, { hat with }, hahead⟩
      rcases List.mem_append.mp hq with hq | hq
      · exact List.mem_append_left _ hq
      · exact List.mem_append_right _ (List.mem_cons_of_mem _ ((List.mem_cons.mp hq).resolve_left hqp))

/-! ### One row placed anew -/

theorem pageRows_updateRow (s : State) (r : RowId) (f : Row → Row) (q : Page) :
    pageRows (s.updateRow r f) q = pageRows s q := by
  refine pageRows_congr (fun x => ?_) rfl
  rw [State.row_updateRow]
  split
  · rename_i hx
    rw [hx, Option.isSome_map]
  · rfl

theorem decidedLines_updateRow_of_ne {r x : RowId} (h : x ≠ r) (s : State) (f : Row → Row) (q : Page) :
    decidedLines (s.updateRow r f) q x = decidedLines s q x := by
  rw [decidedLines_eq, decidedLines_eq, State.row_updateRow_of_ne s f h.symm]
  rfl

theorem decidedLines_updateRow_same {r : RowId} {row : Row} (hrow : s.row r = some row) (f : Row → Row) (q : Page) :
    decidedLines (s.updateRow r f) q r = decidedAt s.pages q (f row).cursor := by
  rw [decidedLines_eq, State.row_updateRow_same, hrow]
  rfl

/-- The plan after one row has been placed anew: it stands ahead of HWM, and no page whose accounts are closed sees a
line more or less decided. -/
theorem PlanOk.move (ok : PlanOk late loose s) {r : RowId} {row : Row} {f : Row → Row} (hrow : s.row r = some row)
    (hloose : ∀ id, loose id → loose' id) (hlate : ∀ q, q ≠ r → late q → late' q)
    (hkeep : ∀ q ∈ s.pages, q.state = .started → ¬ loose' q.id → entry q.bars (rowBar r) = true →
      decidedAt s.pages q (f row).cursor = decidedAt s.pages q row.cursor)
    (hplace : ∀ c, (f row).cursor = some c → ∃ p ∈ s.pages, ∃ start, CursorAt s r (f row) c p start ∧
      s.motion.hwm < firePosition start (rowOffset s.geometry r) c.line s.motion.pitch) :
    PlanOk late' loose' (s.updateRow r f) := by
  have hexists : ∀ x : RowId, ((s.updateRow r f).row x).isSome = (s.row x).isSome := fun x => by
    rw [State.row_updateRow]
    split
    · rename_i hx
      rw [hx, Option.isSome_map]
    · rfl
  refine ⟨?_, fun q hq hs hn => ?_, fun x y c hx hc => ?_⟩
  · exact ok.sound.congr rfl (MotionOn.refl _) hexists
  · refine (ok.accounts q hq hs fun hl => hn (hloose _ hl)).of_decided (pageRows_updateRow s r f q) (fun x hx => ?_)
      rfl rfl rfl
    by_cases hxr : x = r
    · subst hxr
      rw [decidedLines_updateRow_same hrow, hkeep q hq hs hn (mem_pageRows.mp hx).2, decidedLines_eq, hrow]
      rfl
    · exact decidedLines_updateRow_of_ne hxr s f q
  · by_cases hxr : x = r
    · subst hxr
      rw [State.row_updateRow_same, hrow, Option.map_some] at hx
      obtain rfl := Option.some.inj hx
      obtain ⟨p, hp, start, hat, hahead⟩ := hplace c hc
      exact ⟨p, hp, start, { hat with }, .inl hahead⟩
    · rw [State.row_updateRow_of_ne s f (Ne.symm hxr)] at hx
      obtain ⟨p, hp, start, hat, hahead⟩ := ok.places x y c hx hc
      exact ⟨p, hp, start, { hat with }, hahead.imp id fun h => ⟨hlate x hxr h.1, h.2⟩⟩

/-- A plan with one row no longer late, since it has its fire position ahead of HWM or none. -/
theorem PlanOk.on_time (ok : PlanOk late loose s) {r : RowId} (hlate : ∀ q, q ≠ r → late q → late' q)
    (h : (s.row r).bind (·.fire) ≠ some s.motion.hwm) : PlanOk late' loose s where
  sound := ok.sound
  accounts := ok.accounts
  places := fun q row c hrow hc => by
    obtain ⟨p, hp, start, hat, hahead⟩ := ok.places q row c hrow hc
    refine ⟨p, hp, start, hat, ?_⟩
    rcases hahead with hahead | ⟨hq, heq⟩
    · exact .inl hahead
    · refine .inr ⟨hlate q ?_ hq, heq⟩
      rintro rfl
      rw [hrow, Option.bind_some, hat.fire, ← heq] at h
      exact h rfl

/-- No page's accounts are open. -/
theorem PlanOk.close (ok : PlanOk late loose s) (h : ∀ p ∈ s.pages, p.state = .started → loose p.id → Accounts s p) :
    PlanOk late noPage s :=
  { ok with
    accounts := fun p hp hs _ => by
      by_cases hl : loose p.id
      · exact h p hp hs hl
      · exact ok.accounts p hp hs hl }

/-! ### The next place of a row -/

/-- A started page has its start D beyond its trigger. -/
theorem PageSound.start_eq (h : PageSound s p) (hstate : p.state = .started) :
    ∃ T, p.trigger = some T ∧ p.start = some (T + s.motion.delay) := by
  have ht := h.triggered
  rw [hstate] at ht
  obtain ⟨T, hT⟩ := Option.isSome_iff_exists.mp (ht.trans (by simp))
  exact ⟨T, hT, (h.timed T hT).1⟩

theorem pageStart_at {x : Page} {start : Nat} (hids : (s.pages.map (·.id)).Nodup) (hx : x ∈ s.pages)
    (hstart : x.start = some start) : pageStart s.pages x.id = start := by
  obtain ⟨l, m, hpages⟩ := List.append_of_mem hx
  rw [hpages] at hids ⊢
  rw [pageStart, findPage_at hids]
  exact Option.getD_eq_iff.mpr (.inl hstart)

/-- The next STARTED page of the bar behind a page: its line 0 lies ahead of every line of that page. -/
theorem cursorAt_next (h : PagesSound s) (motion : MotionOk s) (hpages : s.pages = front ++ p :: back)
    (hstate : p.state = .started) {start k : Nat} (hstart : p.start = some start) (hk : k < p.length) {r : RowId}
    {x : Page} (hx : back.find? (fun q => q.state = .started && entry q.bars (rowBar r)) = some x) {row : Row}
    (hfire : row.fire = some (firePosition (pageStart s.pages x.id) (rowOffset s.geometry r) 0 s.motion.pitch)) :
    x ∈ s.pages ∧ ∃ start', CursorAt s r row { page := x.id, line := 0 } x start' ∧
      firePosition start (rowOffset s.geometry r) k s.motion.pitch <
        firePosition start' (rowOffset s.geometry r) 0 s.motion.pitch := by
  have hback : x ∈ back := List.mem_of_find?_eq_some hx
  have hmem : x ∈ s.pages := hpages ▸ List.mem_append_right _ (List.mem_cons_of_mem _ hback)
  obtain ⟨hxstate, hxbar⟩ : x.state = .started ∧ entry x.bars (rowBar r) = true := by
    simpa using List.find?_some hx
  obtain ⟨T, hT, hp⟩ := (h.records p (hpages ▸ List.mem_append_right _ List.mem_cons_self)).start_eq hstate
  obtain ⟨T', hT', hxstart⟩ := (h.records x hmem).start_eq hxstate
  obtain rfl := Option.some.inj (hp.symm.trans hstart)
  have happart := h.apart
  rw [hpages, List.pairwise_append, List.pairwise_cons] at happart
  obtain ⟨-, ⟨hnext, -⟩, -⟩ := happart
  refine ⟨hmem, T' + s.motion.delay, ?_, firePosition_next_page motion.gap.1 hk ((hnext x hback T' hT').2 T hT)⟩
  exact
    { named := rfl
      started := hxstate
      bar := hxbar
      line := (motion.lengths x hmem).1
      begun := hxstart
      fire := by rw [hfire, pageStart_at h.ids_distinct hmem hxstart] }

/-- A row that takes up the next STARTED page of its bar, or goes idle, leaves the plan in order but for the accounts of
the page it leaves. -/
theorem PlanOk.takeUp (ok : PlanOk late loose s) (motion : MotionOk s) (hpages : s.pages = front ++ p :: back)
    {r : RowId} {row : Row} {c : Cursor} (hrow : s.row r = some row) (hc : row.cursor = some c)
    (hcp : c.page = p.id) (hlate : ∀ q, q ≠ r → late q → late' q) (hloose : ∀ id, loose id ↔ id = p.id) :
    PlanOk late' loose
      (takeUp r (back.find? fun q => q.state = .started && entry q.bars (rowBar r)) s) := by
  have hids := ok.sound.ids_at hpages
  obtain ⟨q, hq, start, hat, hahead⟩ := ok.places r row c hrow hc
  have hmem : p ∈ s.pages := hpages ▸ List.mem_append_right _ List.mem_cons_self
  obtain rfl := List.inj_on_of_nodup_map ok.sound.ids_distinct hq hmem (hat.named.trans hcp)
  have hle : s.motion.hwm ≤ firePosition start (rowOffset s.geometry r) c.line s.motion.pitch :=
    hahead.elim Nat.le_of_lt fun h => h.2.le
  have hkeep : ∀ x ∈ s.pages, x.state = .started → ¬ loose x.id → entry x.bars (rowBar r) = true →
      decidedAt s.pages x (takenUpCursor (back.find? fun q => q.state = .started && entry q.bars (rowBar r))) =
        decidedAt s.pages x row.cursor := fun x hx hs hn hb => by
    rw [hc, hpages]
    exact decidedAt_next hids (hpages ▸ hx) (fun he => hn ((hloose _).mpr he)) hs hb hcp
  cases hnext : back.find? fun q => q.state = .started && entry q.bars (rowBar r) with
  | none =>
    rw [hnext] at hkeep
    exact ok.move hrow (fun _ => id) hlate hkeep fun c hc => nomatch hc
  | some x =>
    rw [hnext] at hkeep
    refine ok.move hrow (fun _ => id) hlate hkeep fun c' hc' => ?_
    obtain rfl := Option.some.inj hc'
    obtain ⟨hx, start', hat', hlt⟩ := cursorAt_next (row := { row with
      cursor := some { page := x.id, line := 0 }
      fire := some (firePosition (pageStart s.pages x.id) (rowOffset s.geometry r) 0 s.motion.pitch) })
      ok.sound motion hpages hat.started hat.begun hat.line hnext rfl
    exact ⟨x, hx, start', hat', hle.trans_lt hlt⟩

end

end Sys2Proof.Machine
end

section
/-! PROOF. The plan: the fire decision counts a line, moves its row on, and finishes the page where all rows have
(R25, R40, R42, R85, R88, R91, R92). -/

namespace Sys2Proof.Machine

/-! ### The record counted and finished -/

theorem Page.count_total (p : Page) (o : LineOutcome) :
    (p.count o).fired + (p.count o).dropped.total = p.fired + p.dropped.total + 1 := by
  cases o with
  | fired list => simp only [Page.count]; omega
  | dropped cause => cases cause <;> simp only [Page.count, DropCounts.add, DropCounts.total] <;> omega

section
variable {s : State} {p : Page}

/-- Counting a line keeps a started record in order. -/
theorem PageSound.count (h : PageSound s p) (hstate : p.state = .started) (o : LineOutcome) :
    PageSound s (p.count o) := by
  have hblank := h.blank_le
  cases o with
  | fired list =>
    exact { h with
      blank_le := by
        simp only [Page.count]
        split <;> omega
      opened := fun hp => absurd (hstate.symm.trans hp) (by simp)
      done := fun hp => absurd (hstate.symm.trans hp) (by simp) }
  | dropped cause =>
    have htotal := p.count_total (.dropped cause)
    simp only [Page.count] at htotal
    exact { h with
      dropped_flag := by
        have hpos : 0 < (p.dropped.add cause).total := by omega
        simp [Page.count, hpos]
      opened := fun hp => absurd (hstate.symm.trans hp) (by simp)
      done := fun hp => absurd (hstate.symm.trans hp) (by simp) }

/-- A row's finish keeps a started record in order, if its lines are all decided once all rows have finished. -/
theorem PageSound.finished (h : PageSound s p) (hstate : p.state = .started)
    (hall : p.rowsFinished + 1 = p.rows → p.fired + p.dropped.total = p.length * p.rows) :
    PageSound s p.finished := by
  obtain ⟨habandoned, hmark, hlt⟩ := h.started hstate
  have htriggered := h.triggered
  by_cases hdone : p.rowsFinished + 1 = p.rows
  · have hp : p.finished = { p.oneMore with state := .done } := by simp [Page.finished, hdone]
    rw [hp]
    exact { h with
      triggered := by simpa [hstate, hmark, Page.oneMore] using htriggered
      opened := fun hs => nomatch hs
      started := fun hs => nomatch hs
      done := fun _ => ⟨hdone, (congrArg (_ + ·) habandoned).trans (hall hdone), fun _ => habandoned⟩ }
  · have hp : p.finished = p.oneMore := by simp [Page.finished, Page.oneMore, hdone, ← hstate]
    rw [hp]
    exact { h with
      opened := fun hs => absurd (hstate.symm.trans hs) (by simp)
      started := fun _ => ⟨habandoned, hmark, by simp only [Page.oneMore]; omega⟩
      done := fun hs => absurd (hstate.symm.trans hs) (by simp) }

end

section
variable {late late' : RowId → Prop} {s : State} {front back : List Page} {p : Page} {r : RowId} {row : Row}
  {c : Cursor}

theorem decidedLines_replace {q q' : Page} (hpages : s.pages = front ++ q :: back) (hid : q'.id = q.id)
    (hlength : q'.length = q.length) (x : RowId) :
    decidedLines (s.withPages (front ++ q' :: back)) q' x = decidedLines s q x := by
  rw [decidedLines_eq, decidedLines_eq]
  exact decidedAt_congr (by simp [hpages, hid]) hid hlength _

/-- One row has another cursor, and every other row stands as it stood. -/
structure RowMoved (r : RowId) (cursor : Option Cursor) (s t : State) : Prop where
  exists_iff : ∀ x : RowId, (t.row x).isSome = (s.row x).isSome
  others : ∀ x, x ≠ r → t.row x = s.row x
  same : (t.row r).bind (·.cursor) = cursor

theorem rowMoved_updateRow {cursor : Option Cursor} {f : Row → Row} (hrow : s.row r = some row)
    (hf : (f row).cursor = cursor) : RowMoved r cursor s (s.updateRow r f) where
  exists_iff := fun x => by
    rw [State.row_updateRow]
    split
    · rename_i hx
      rw [hx, Option.isSome_map]
    · rfl
  others := fun x hx => State.row_updateRow_of_ne s f hx.symm
  same := by
    rw [State.row_updateRow_same, hrow]
    exact hf

theorem rowMoved_takeUp (hrow : s.row r = some row) (next : Option Page) :
    RowMoved r (takenUpCursor next) s (takeUp r next s) := by
  cases next with
  | none => exact rowMoved_updateRow hrow rfl
  | some x => exact rowMoved_updateRow hrow rfl

theorem rowMoved_placeCursor (hrow : s.row r = some row) (page line : Nat) :
    RowMoved r (some { page := page, line := line }) s (placeCursor r page line s) := rowMoved_updateRow hrow rfl

theorem RowMoved.of_withPages {cursor : Option Cursor} {t : State} {ps : List Page}
    (h : RowMoved r cursor (s.withPages ps) t) : RowMoved r cursor s t := { h with }

theorem RowMoved.withPages {cursor : Option Cursor} {t : State} (h : RowMoved r cursor s t) (ps : List Page) :
    RowMoved r cursor s (t.withPages ps) := { h with }

section
variable {cursor : Option Cursor} {t : State} {q : Page} (h : RowMoved r cursor s t)
  (hids : t.pages.map (·.id) = s.pages.map (·.id)) (hid : q.id = p.id) (hlength : q.length = p.length)
include h hids hid hlength

theorem RowMoved.decidedLines_same : decidedLines t q r = decidedAt s.pages p cursor := by
  rw [decidedLines_eq, h.same, decidedAt_congr hids hid hlength]

theorem RowMoved.decidedLines_of_ne {x : RowId} (hx : x ≠ r) : decidedLines t q x = decidedLines s p x := by
  rw [decidedLines_eq, decidedLines_eq, h.others x hx, decidedAt_congr hids hid hlength]

/-- The accounts after a row has decided one line more of the page. -/
theorem Accounts.decide_line (k : Accounts s p) (hbars : q.bars = p.bars) (hr : r ∈ pageRows s p) {line : Nat}
    (hold : decidedLines s p r = line) (hnew : decidedAt s.pages p cursor = line + 1) (hlt : line < p.length)
    (hcount : q.fired + q.dropped.total = p.fired + p.dropped.total + 1)
    (hfinished : q.rowsFinished = p.rowsFinished + if line + 1 = p.length then 1 else 0) : Accounts t q := by
  have hsame := (h.decidedLines_same hids hid hlength).trans hnew
  refine k.share hr (pageRows_congr h.exists_iff hbars) (fun x _ hx => h.decidedLines_of_ne hids hid hlength hx)
    hlength ?_ ?_
  · rw [hsame, hold, hcount]
    omega
  · rw [hsame, hold, hfinished, if_neg hlt.ne]
    rfl

end

theorem planOk_counted (ok : PlanOk late noPage s) (hpages : s.pages = front ++ p :: back)
    (hstate : p.state = .started) (o : LineOutcome) :
    PlanOk late (· = p.id) (s.withPages (front ++ p.count o :: back)) := by
  obtain ⟨hid, hlength, hbars, -, -, hcstate, hstart⟩ := p.count_frame o
  have hmem : p ∈ s.pages := hpages ▸ List.mem_append_right _ List.mem_cons_self
  have htrigger : (p.count o).trigger = p.trigger := by cases o <;> rfl
  have hsound := ok.sound.recount hpages hid ((ok.sound.records p hmem).count hstate o) (by simp [hcstate, hstate])
    (fun _ => hstate) hlength htrigger
  exact ok.replace hpages hsound hid hlength hbars (fun _ hn => absurd rfl hn) (fun _ _ h => h.elim)
    fun _ _ _ _ => ⟨hcstate.trans hstate, hstart⟩

section
variable (ok : PlanOk late noPage s) (hpages : s.pages = front ++ p :: back) (hrow : s.row r = some row) {start : Nat}
  (hat : CursorAt s r row c p start) (hc : row.cursor = some c)
include hpages hrow hat hc

/-- A working row has decided the lines below its cursor. -/
theorem CursorAt.decided : p ∈ s.pages ∧ r ∈ pageRows s p ∧ decidedLines s p r = c.line := by
  refine ⟨hpages ▸ List.mem_append_right _ List.mem_cons_self, mem_pageRows.mpr ⟨by rw [hrow]; rfl, hat.bar⟩, ?_⟩
  rw [decidedLines_eq, hrow, Option.bind_some, hc, decidedAt, if_pos hat.named.symm]

include ok

/-- The row goes on to the next line of its page. -/
theorem planOk_next_line (motion : MotionOk s)
    (hahead : s.motion.hwm ≤ firePosition start (rowOffset s.geometry r) c.line s.motion.pitch)
    (hlate : ∀ q, q ≠ r → late q → late' q) (hline : c.line + 1 < p.length) (o : LineOutcome) :
    PlanOk late' noPage (placeCursor r c.page (c.line + 1) (s.withPages (front ++ p.count o :: back))) := by
  obtain ⟨hid, hlength, hbars, -, hfinished, hcstate, hstart⟩ := p.count_frame o
  obtain ⟨hmem, hr, hold⟩ := hat.decided hpages hrow hc
  have hcounted := planOk_counted ok hpages hat.started o
  have hids := hcounted.sound.ids_distinct
  have hin : p.count o ∈ front ++ p.count o :: back := List.mem_append_right _ List.mem_cons_self
  have hplaced : PlanOk late' (· = p.id)
      (placeCursor r c.page (c.line + 1) (s.withPages (front ++ p.count o :: back))) := by
    refine hcounted.move hrow (fun _ => id) hlate (fun q _ _ hn _ => ?_) fun c' hc' => ?_
    · rw [hc]
      exact decidedAt_elsewhere (by rwa [← hat.named])
    · obtain rfl := Option.some.inj hc'
      refine ⟨p.count o, hin, start, ?_, hahead.trans_lt (firePosition_next motion.pitch.1)⟩
      exact
        { named := hid.trans hat.named
          started := hcstate.trans hat.started
          bar := hbars ▸ hat.bar
          line := hlength ▸ hline
          begun := hstart.trans hat.begun
          fire := by
            have := pageStart_at hids hin (hstart.trans hat.begun)
            rw [hid, hat.named] at this
            simp only [this, State.withPages_geometry, State.withPages_motion] }
  refine hplaced.close fun q hq _ hqid => ?_
  obtain rfl := List.inj_on_of_nodup_map hids hq hin (hqid.trans hid.symm)
  have hmoved : RowMoved r (some { page := c.page, line := c.line + 1 }) s
      (placeCursor r c.page (c.line + 1) (s.withPages (front ++ p.count o :: back))) :=
    (rowMoved_placeCursor (s := s.withPages (front ++ p.count o :: back)) hrow _ _).of_withPages
  refine (ok.accounts p hmem hat.started id).decide_line hmoved ?_ hid hlength hbars hr hold ?_ hat.line
    (p.count_total o) ?_
  · exact show (front ++ p.count o :: back).map (·.id) = s.pages.map (·.id) by simp [hpages, hid]
  · rw [decidedAt, if_pos hat.named.symm]
  · rw [hfinished, if_neg hline.ne, Nat.add_zero]

/-- The row takes up its next page, and the record of the page it leaves is counted. -/
theorem planOk_left (motion : MotionOk s) (hlate : ∀ q, q ≠ r → late q → late' q) (o : LineOutcome) :
    PlanOk late' (· = p.id) (takeUp r (back.find? fun q => q.state = .started && entry q.bars (rowBar r))
      (s.withPages (front ++ p.count o :: back))) := by
  obtain ⟨hid, hlength, -⟩ := p.count_frame o
  obtain ⟨hmem, -⟩ := hat.decided hpages hrow hc
  have hmotion : MotionOk (s.withPages (front ++ p.count o :: back)) := by
    refine motionOk_of_lengths motion rfl fun q hq => ?_
    rcases List.mem_append.mp hq with hq | hq
    · exact ⟨q, hpages ▸ List.mem_append_left _ hq, rfl⟩
    · rcases List.mem_cons.mp hq with rfl | hq
      · exact ⟨p, hmem, hlength⟩
      · exact ⟨q, hpages ▸ List.mem_append_right _ (List.mem_cons_of_mem _ hq), rfl⟩
  exact (planOk_counted ok hpages hat.started o).takeUp hmotion rfl hrow hc (hat.named.symm.trans hid.symm) hlate
    fun id => by rw [hid]

/-- The row finishes with its page and goes on to the next. -/
theorem planOk_next_page (motion : MotionOk s) (hlate : ∀ q, q ≠ r → late q → late' q) (hline : p.length ≤ c.line + 1)
    (o : LineOutcome) :
    PlanOk late' noPage
      ((takeUp r (back.find? fun q => q.state = .started && entry q.bars (rowBar r))
        (s.withPages (front ++ p.count o :: back))).withPages (front ++ (p.count o).finished :: back)) := by
  obtain ⟨hid, hlength, hbars, hrows, hfinished, hcstate, -⟩ := p.count_frame o
  obtain ⟨hmem, hr, hold⟩ := hat.decided hpages hrow hc
  have hsound := ok.sound.records p hmem
  have hlast : c.line + 1 = p.length := le_antisymm hat.line hline
  have hleft := planOk_left ok hpages hrow hat hc motion hlate o
  generalize hnext : (back.find? fun q => q.state = .started && entry q.bars (rowBar r)) = next at hleft ⊢
  have hmoved : RowMoved r (takenUpCursor next) s (takeUp r next (s.withPages (front ++ p.count o :: back))) :=
    (rowMoved_takeUp (s := s.withPages (front ++ p.count o :: back)) hrow next).of_withPages
  have hupages : (takeUp r next (s.withPages (front ++ p.count o :: back))).pages = front ++ p.count o :: back := by
    cases next <;> rfl
  generalize takeUp r next (s.withPages (front ++ p.count o :: back)) = u at hleft hmoved hupages ⊢
  have haccounts : Accounts (u.withPages (front ++ (p.count o).finished :: back)) (p.count o).finished := by
    refine (ok.accounts p hmem hat.started id).decide_line (hmoved.withPages _) ?_ hid hlength hbars hr hold ?_
      hat.line (p.count_total o) ?_
    · exact show (front ++ (p.count o).finished :: back).map (·.id) = s.pages.map (·.id) by
        simp [hpages, Page.finished, Page.oneMore, hid]
    · rw [hpages, decidedAt_left (ok.sound.ids_at hpages) fun x hx => List.mem_of_find?_eq_some (hnext.trans hx)]
      exact hlast.symm
    · rw [if_pos hlast, ← hfinished]
      rfl
  have hall : (p.count o).rowsFinished + 1 = (p.count o).rows →
      (∀ x ∈ pageRows u (p.count o), decidedLines u (p.count o) x = p.length) ∧
        (p.count o).fired + (p.count o).dropped.total = (p.count o).length * (p.count o).rows := fun hdone => by
    have hcount : (p.count o).rows = (pageRows u (p.count o)).length := by
      rw [hrows, hsound.rows, pageRows_congr hmoved.exists_iff hbars]
    obtain ⟨hlines, htotal⟩ := haccounts.all_decided (hdone.trans hcount)
    refine ⟨fun x hx => ?_, hcount ▸ htotal⟩
    rw [← hlength]
    exact (decidedLines_replace (q' := (p.count o).finished) hupages rfl rfl x).symm.trans (hlines x hx)
  have hcounted := hleft.sound.records (p.count o) (by rw [hupages]; exact List.mem_append_right _ List.mem_cons_self)
  have hnewstate : (p.count o).finished.state = .started ∨
      (p.count o).finished.state = .done ∧ (p.count o).rowsFinished + 1 = (p.count o).rows := by
    simp only [Page.finished]
    split
    · exact .inr ⟨rfl, by assumption⟩
    · exact .inl rfl
  refine hleft.replace hupages (hleft.sound.recount hupages rfl ?_ ?_ (fun _ => hcstate.trans hat.started) rfl rfl) rfl
    rfl rfl (fun _ _ => haccounts) (fun id hne hl => absurd (hl.trans hid.symm) hne) fun x c' hx hc' => ?_
  · exact hcounted.finished (hcstate.trans hat.started) fun hdone => (hall hdone).2
  · rcases hnewstate with h | ⟨h, -⟩ <;> simp [h]
  · refine ⟨hnewstate.resolve_right fun ⟨_, hdone⟩ => ?_, rfl⟩
    obtain ⟨y, hy, hcursor⟩ := Option.bind_eq_some_iff.mp hx
    obtain ⟨q, hq, start', hat', -⟩ := hleft.places x y c' hy hcursor
    have hqc : q = p.count o := List.inj_on_of_nodup_map hleft.sound.ids_distinct hq
      (by rw [hupages]; exact List.mem_append_right _ List.mem_cons_self) (hat'.named.trans hc')
    obtain ⟨-, hxr, hlines⟩ := (hqc ▸ hat').decided (front := front) (back := back) hupages hy hcursor
    have := (hall hdone).1 x hxr
    have hlt := hat'.line
    rw [hqc, hlength] at hlt
    omega

end

end

end Sys2Proof.Machine
end

section
/-! PROOF. The plan: fire decisions and arrivals, and what the encoder does (R21 to R25, R85, R88). -/

namespace Sys2Proof.Machine

section
variable {late late' : RowId → Prop} {s : State} {front back : List Page} {p : Page} {r : RowId} {row : Row}
  {c : Cursor}

/-- The finish of a page is that of its record, as far as the schedule goes. -/
theorem schedule_finishPage (hids : ((front ++ p :: back).map (·.id)).Nodup) (hpages : s.pages = front ++ p :: back)
    (hstate : p.state = .started) :
    (finishPage p.id s).schedule = (s.withPages (front ++ p.finished :: back)).schedule := by
  by_cases hdone : p.rowsFinished + 1 = p.rows
  · rw [finishPage_done hids hpages hstate hdone]
    exact (steady_storePageEnd _ _).schedule
  · rw [finishPage_started hids hpages hstate hdone]
    rfl

/-- Moving on from a counted line. -/
theorem planOk_moveOn (ok : PlanOk late noPage s) (motion : MotionOk s) (hpages : s.pages = front ++ p :: back)
    (hrow : s.row r = some row) {start : Nat} (hat : CursorAt s r row c p start) (hc : row.cursor = some c)
    (hahead : s.motion.hwm ≤ firePosition start (rowOffset s.geometry r) c.line s.motion.pitch)
    (hlate : ∀ q, q ≠ r → late q → late' q) (n : Nat) (o : LineOutcome) :
    PlanOk late' noPage (moveOn n r c (s.withPages (front ++ p.count o :: back))) := by
  obtain ⟨hid, hlength, -, -, -, hstate, -⟩ := p.count_frame o
  have hids := (planOk_counted ok hpages hat.started o).sound.ids_at rfl
  have hcp : (p.count o).id = c.page := hid.trans hat.named
  have hfind : findPage (s.withPages (front ++ p.count o :: back)).pages c.page = some (p.count o) :=
    hcp ▸ findPage_at hids
  unfold moveOn
  simp only [hfind]
  by_cases hline : c.line + 1 < p.length
  · rw [if_pos (hlength ▸ hline)]
    exact (planOk_next_line ok hpages hrow hat hc motion hahead hlate hline o).of_schedule (schedule_beginLoad n r _)
  · rw [if_neg (hlength ▸ hline)]
    have hnext : nextStarted (s.withPages (front ++ p.count o :: back)).pages c.page (rowBar r) =
        back.find? fun q => q.state = .started && entry q.bars (rowBar r) := hcp ▸ nextStarted_at hids (rowBar r)
    rw [hnext]
    refine (planOk_next_page ok hpages hrow hat hc motion hlate (Nat.not_lt.mp hline) o).of_schedule ?_
    rw [schedule_beginLoad, ← hcp]
    refine schedule_finishPage hids ?_ (hstate.trans hat.started)
    cases back.find? (fun q => q.state = .started && entry q.bars (rowBar r)) <;> rfl

/-! ### A decision always has an outcome -/

/-- The rows that exist are those of defined heads. -/
def RowsDefined (s : State) : Prop :=
  ∀ r : RowId, (s.row r).isSome = true → (entry s.geometry.heads (portOf r)).isSome = true

/-- R77 rules out that a working row has nothing to decide on (log entry 19). -/
theorem judgeLine_isSome (seats : SeatsOk noRow s) (hdefined : RowsDefined s) (hrow : s.row r = some row)
    (hc : row.cursor = some c) :
    ∃ o, judgeLine (decide ((s.port (portOf r)).state = .fault)) row = some o := by
  have hseat := seats.row hrow
  have hserved := (seats (portOf r)).served (hdefined r (by rw [hrow]; rfl))
  have honline : s.control.op = .online := by
    by_contra hop
    rw [(hseat.offline_idle hop).1] at hc
    cases hc
  cases hport : (s.port (portOf r)).state with
  | off => exact absurd hport hserved
  | fault => exact ⟨_, rfl⟩
  | ready =>
    have hloaded := hseat.loaded id honline hport (by rw [hc]; rfl)
    unfold judgeLine
    cases row.drive with
    | playing play => exact ⟨_, rfl⟩
    | rest =>
      cases hlatch : row.latch with
      | empty => exact absurd hlatch hloaded
      | failed k => exact ⟨_, rfl⟩
      | loading k load => exact ⟨_, rfl⟩
      | ready k list => exact ⟨_, rfl⟩

/-- A decision leaves its row ahead of HWM. -/
theorem planOk_fireDecision (ok : PlanOk late noPage s) (motion : MotionOk s) (seats : SeatsOk noRow s)
    (hdefined : RowsDefined s) (hlate : ∀ q, q ≠ r → late q → late' q) (hrow : s.row r = some row)
    (hc : row.cursor = some c) (n : Nat) : PlanOk late' noPage (fireDecision n r s) := by
  obtain ⟨o, ho⟩ := judgeLine_isSome seats hdefined hrow hc
  have hcarry := schedule_carryOut r c o s
  have ok1 := ok.of_schedule hcarry
  obtain ⟨row1, hrow1, hcursor1, -⟩ := place_eq (congrFun (congrArg Schedule.places hcarry.symm) r) hrow
  obtain ⟨p, hp, start, hat, hahead⟩ := ok1.places r row1 c hrow1 (hcursor1.trans hc)
  obtain ⟨front, back, hpages⟩ := List.append_of_mem hp
  have hmoved := planOk_moveOn ok1 (motionOk_of_schedule motion hcarry) hpages hrow1 hat (hcursor1.trans hc)
    (hahead.elim Nat.le_of_lt fun h => h.2.le) hlate n o
  have hcount : (carryOut r c o s).updatePage c.page (fun p => p.count o) =
      (carryOut r c o s).withPages (front ++ p.count o :: back) := by
    rw [← hat.named]
    exact updatePage_at (ok1.sound.ids_at hpages) hpages _
  rw [← hcount] at hmoved
  have hdecide : fireDecision n r s = handOn n r c o (carryOut r c o s) := by simp only [fireDecision, hrow, hc, ho]
  rw [hdecide]
  exact hmoved.of_schedule ((steady_judgeRetirement _ _).trans (steady_judgeChangeover _ _)).schedule

/-! ### Arrivals -/

theorem RowsDefined.of_rowEvent {t : State} (h : RowsDefined s) (k : RowEvent s t) : RowsDefined t := fun r hr => by
  rw [k.heads]
  exact h r (k.exists_iff r ▸ hr)

theorem planOk_arrive (ok : PlanOk late noPage s) (motion : MotionOk s) (seats : SeatsOk noRow s)
    (hdefined : RowsDefined s) (hlate : ∀ q, q ≠ r → late q → late' q) (n : Nat) :
    PlanOk late' noPage (arrive n s.motion.hwm r s) := by
  unfold arrive
  split
  · rename_i hfire
    obtain ⟨row, hrow, hrowfire⟩ := Option.bind_eq_some_iff.mp hfire
    have hsome : row.cursor.isSome = true := by
      rw [← (seats.row hrow).fire_iff, hrowfire]
      rfl
    obtain ⟨c, hc⟩ := Option.isSome_iff_exists.mp hsome
    exact planOk_fireDecision ok motion seats hdefined hlate hrow hc n
  · rename_i hfire
    exact ok.on_time hlate hfire

/-- All rows that stand at the new HWM decide, in any order. -/
theorem planOk_arriveAll {rs : List RowId} (ok : PlanOk (· ∈ rs) noPage s) (motion : MotionOk s)
    (seats : SeatsOk noRow s) (hdefined : RowsDefined s) (n : Nat) :
    PlanOk noRow noPage (arriveAll n s.motion.hwm rs s) := by
  induction rs generalizing s with
  | nil => exact ok.weaken (fun _ h => nomatch h) fun _ => id
  | cons r rs ih =>
    have hevent := rowEvent_arrive n s.motion.hwm r s
    have harrive := planOk_arrive ok motion seats hdefined (r := r) (late' := (· ∈ rs))
      (fun q hq h => (List.mem_cons.mp h).resolve_left hq) n
    have hseats := seatsOk_arriveAll seats n s.motion.hwm [r]
    have hrest := ih harrive (motionOk_of_rowEvent motion hevent) hseats (hdefined.of_rowEvent hevent)
    rw [hevent.motion] at hrest
    exact hrest

end

/-! ### The encoder -/

section
variable {s t : State}

/-- Motion in which HWM stands changes no plan. -/
theorem PlanOk.of_motion {late : RowId → Prop} {loose : Nat → Prop} (ok : PlanOk late loose s)
    (hmotion : MotionOn s.motion t.motion) (hhwm : t.motion.hwm = s.motion.hwm)
    (hheads : t.geometry.heads = s.geometry.heads) (hpages : t.pages = s.pages) (hrows : t.rows = s.rows) :
    PlanOk late loose t := by
  have hrow := State.row_congr hrows
  have hsame : SameRows s t :=
    { ids := by rw [hpages], exists_iff := fun r => by rw [hrow], cursors := fun r => by rw [hrow] }
  refine ⟨ok.sound.congr (by rw [hpages]) hmotion hsame.exists_iff, fun p hp hs hn => ?_, fun r row c hr hc => ?_⟩
  · exact (ok.accounts p (hpages ▸ hp) hs hn).congr hsame rfl rfl rfl rfl rfl
  · rw [hrow] at hr
    obtain ⟨p, hp, start, hat, hahead⟩ := ok.places r row c hr hc
    rw [hhwm, hmotion.pitch, rowOffset_congr hheads]
    refine ⟨p, hpages ▸ hp, start, { hat with fire := ?_ }, hahead⟩
    rw [hmotion.pitch, rowOffset_congr hheads]
    exact hat.fire

/-- After HWM has risen by one, every row may stand at it. -/
theorem planOk_hwm_succ (ok : PlanOk noRow noPage s) {m : Motion} (hmotion : MotionOn s.motion m)
    (hhwm : m.hwm = s.motion.hwm + 1) {late : RowId → Prop} (hlate : ∀ r, late r) :
    PlanOk late noPage { s with motion := m } := by
  refine ⟨ok.sound.congr rfl hmotion fun _ => rfl, fun p hp hs hn => ?_, fun r row c hr hc => ?_⟩
  · exact { ok.accounts p hp hs hn with }
  · obtain ⟨p, hp, start, hat, hahead⟩ := ok.places r row c hr hc
    have hlt := hahead.resolve_right fun h => h.1
    change ∃ p ∈ s.pages, ∃ start, _ ∧
      (m.hwm < firePosition start (rowOffset s.geometry r) c.line m.pitch ∨
        late r ∧ m.hwm = firePosition start (rowOffset s.geometry r) c.line m.pitch)
    rw [hhwm, hmotion.pitch]
    refine ⟨p, hp, start, { hat with fire := ?_ }, ?_⟩
    · exact hmotion.pitch ▸ hat.fire
    · rcases Nat.lt_or_eq_of_le (Nat.succ_le_of_lt hlt) with h | h
      · exact .inl h
      · exact .inr ⟨hlate r, h⟩

/-- A forward tick keeps the settings, and raises HWM by one or not at all. -/
theorem forwardTick_motion (m : Motion) : MotionOn m m.forwardTick ∧
    (m.forwardTick.hwm = m.hwm ∨ m.forwardTick.hwm = m.hwm + 1) := by
  unfold Motion.forwardTick
  split
  · exact ⟨{ MotionOn.refl m with }, .inl rfl⟩
  · split
    · exact ⟨{ MotionOn.refl m with hwm := Nat.le_succ _ }, .inr rfl⟩
    · exact ⟨{ MotionOn.refl m with }, .inl rfl⟩

theorem planOk_passOn (ok : PlanOk noRow noPage s) (motion : MotionOk s) (seats : SeatsOk noRow s)
    (hdefined : RowsDefined s) (env : Outside) (cl : Option TickClass) : PlanOk noRow noPage (passOn env cl s) := by
  unfold passOn
  split
  · split
    · unfold forwardTick
      dsimp only
      obtain ⟨hmotion, hhwm⟩ := forwardTick_motion s.motion
      split
      · rename_i hlt
        have hsucc : s.motion.forwardTick.hwm = s.motion.hwm + 1 := hhwm.resolve_left (Nat.ne_of_gt hlt)
        have hrisen := planOk_hwm_succ ok hmotion hsucc (late := (· ∈ rowOrder env)) (mem_rowOrder env)
        exact planOk_arriveAll (s := s.updateMotion Motion.forwardTick) hrisen (motionOk_forwardTick motion)
          (seatsOk_of_seats seats rfl) hdefined env.fetched
      · rename_i hle
        have hstay : s.motion.forwardTick.hwm = s.motion.hwm :=
          hhwm.resolve_right fun h => hle (h ▸ Nat.lt_succ_self _)
        exact ok.of_motion (t := s.updateMotion Motion.forwardTick) hmotion hstay rfl rfl rfl
    · exact ok.of_motion { MotionOn.refl s.motion with } rfl rfl rfl rfl
    · exact ok.of_motion { MotionOn.refl s.motion with } rfl rfl rfl rfl
    · exact ok
  · exact ok

end

end Sys2Proof.Machine
end

section
/-! PROOF. The plan: pages started by a trigger (R32, R39, R93) and pages aborted (R43 to R45, R94). -/

namespace Sys2Proof.Machine

section
variable {s t : State} {p : Page}

theorem placeOf_of_ledger (h : t.pages.map Page.ledger = s.pages.map Page.ledger) (id : Nat) :
    placeOf t.pages id = placeOf s.pages id :=
  placeOf_congr (map_of_ledger (fun q => q.id) (fun _ => rfl) h) id

theorem cursor_of_schedule (h : t.schedule = s.schedule) (r : RowId) :
    (t.row r).isSome = (s.row r).isSome ∧ (t.row r).bind (·.cursor) = (s.row r).bind (·.cursor) :=
  cursor_of_place (congrFun (congrArg Schedule.places h) r)

/-! ### The start of a page -/

/-- The record of a page started at trigger T with start S (R39). -/
def Page.begun (p : Page) (T S : Nat) : Page := { p with state := .started, trigger := some T, start := some S }

/-- The rows are taking up the page p, newest of the STARTED pages: those not in `rs` have been asked. -/
structure TakingUp (p : Page) (rs : List RowId) (s : State) : Prop where
  plan : PlanOk noRow (· = p.id) s
  record : ∃ q ∈ s.pages, q.ledger = p.ledger
  ahead : ∃ start, p.start = some start ∧ s.motion.hwm < start
  last : ∀ x ∈ s.pages, x.state = .started → x.id ≠ p.id → placeOf s.pages x.id < placeOf s.pages p.id
  zero : ∀ r c, (s.row r).bind (·.cursor) = some c → c.page = p.id → c.line = 0
  taken : ∀ r, (s.row r).isSome = true → entry p.bars (rowBar r) = true → r ∉ rs → (s.row r).bind (·.cursor) ≠ none

theorem TakingUp.of_schedule {rs : List RowId} (h : TakingUp p rs s) (hs : t.schedule = s.schedule) :
    TakingUp p rs t := by
  have hpages : t.pages.map Page.ledger = s.pages.map Page.ledger := congrArg Schedule.pages hs
  have hmotion : t.motion = s.motion := congrArg Schedule.motion hs
  refine ⟨h.plan.of_schedule hs, ?_, hmotion ▸ h.ahead, fun x hx hstate hne => ?_, fun r c hc => ?_,
    fun r hr hb hn => ?_⟩
  · obtain ⟨q, hq, hledger⟩ := h.record
    obtain ⟨q', hq', he⟩ := mem_of_ledger hpages.symm hq
    exact ⟨q', hq', he.symm.trans hledger⟩
  · obtain ⟨y, hy, he⟩ := mem_of_ledger hpages hx
    obtain ⟨hid, hst, -⟩ := ledger_fields he
    rw [placeOf_of_ledger hpages, placeOf_of_ledger hpages, hid]
    exact h.last y hy (hst ▸ hstate) (hid ▸ hne)
  · rw [(cursor_of_schedule hs r).2] at hc
    exact h.zero r c hc
  · rw [(cursor_of_schedule hs r).1] at hr
    rw [(cursor_of_schedule hs r).2]
    exact h.taken r hr hb hn

/-- An idle row is placed on the page's line 0. -/
theorem TakingUp.place {r : RowId} {rs : List RowId} {row : Row} (h : TakingUp p (r :: rs) s) (motion : MotionOk s)
    (hstate : p.state = .started) (hrow : s.row r = some row) (hidle : row.cursor = none)
    (hbar : entry p.bars (rowBar r) = true) : TakingUp p rs (placeCursor r p.id 0 s) := by
  obtain ⟨q, hq, hledger⟩ := h.record
  obtain ⟨hid, hqstate, hbars, hlength, hstart, -, -⟩ := ledger_fields hledger
  obtain ⟨start, hp, hahead⟩ := h.ahead
  have hplan : PlanOk noRow (· = p.id) (placeCursor r p.id 0 s) := by
    refine h.plan.move hrow (fun _ => id) (fun _ _ => id) (fun x hx hs hn _ => ?_) fun c hc => ?_
    · rw [hidle]
      simp only [decidedAt]
      rw [if_neg (Ne.symm hn), if_pos (h.last x hx hs hn)]
    · obtain rfl := Option.some.inj hc
      refine ⟨q, hq, start, ?_, hahead.trans_le (start_le_firePosition _ _ _ _)⟩
      exact
        { named := hid
          started := hqstate.trans hstate
          bar := hbars ▸ hbar
          line := (motion.lengths q hq).1
          begun := hstart.trans hp
          fire := by rw [← hid, pageStart_at h.plan.sound.ids_distinct hq (hstart.trans hp)] }
  have hmoved := rowMoved_placeCursor hrow p.id 0
  refine ⟨hplan, ⟨q, hq, hledger⟩, h.ahead, h.last, fun x c hc hpage => ?_, fun x hx hb hn => ?_⟩
  · by_cases hxr : x = r
    · subst hxr
      obtain rfl := Option.some.inj (hmoved.same.symm.trans hc)
      rfl
    · rw [hmoved.others x hxr] at hc
      exact h.zero x c hc hpage
  · by_cases hxr : x = r
    · subst hxr
      rw [hmoved.same]
      simp
    · rw [hmoved.others x hxr] at hx ⊢
      exact h.taken x hx hb fun hmem => (List.mem_cons.mp hmem).elim hxr hn

theorem takingUp_takeUpStart {r : RowId} {rs : List RowId} (h : TakingUp p (r :: rs) s) (motion : MotionOk s)
    (hstate : p.state = .started) (n : Nat) : TakingUp p rs (takeUpStart n p r s) := by
  have hskip : ((s.row r).isSome = true → entry p.bars (rowBar r) = true → (s.row r).bind (·.cursor) ≠ none) →
      TakingUp p rs s := fun hr =>
    { h with
      taken := fun x hx hb hn => by
        by_cases hxr : x = r
        · subst hxr
          exact hr hx hb
        · exact h.taken x hx hb fun hmem => (List.mem_cons.mp hmem).elim hxr hn }
  unfold takeUpStart
  split
  · rename_i hrow
    exact hskip fun hr => by simp [hrow] at hr
  · rename_i row hrow
    split
    · rename_i hidle
      exact (h.place motion hstate hrow hidle.1 hidle.2).of_schedule (schedule_beginLoad n r _)
    · rename_i hbusy
      refine hskip fun _ hb hnone => hbusy ⟨?_, hb⟩
      rwa [hrow, Option.bind_some] at hnone

theorem takingUp_takeUpStarts {rs : List RowId} (h : TakingUp p rs s) (motion : MotionOk s)
    (hstate : p.state = .started) (n : Nat) : TakingUp p [] (takeUpStarts n p rs s) := by
  induction rs generalizing s with
  | nil => exact h
  | cons r rs ih =>
    exact ih (takingUp_takeUpStart h motion hstate n) (motionOk_of_rowEvent motion (rowEvent_takeUpStart n p r s))

/-- Once all rows have been asked, none has decided a line of the page. -/
theorem TakingUp.close (h : TakingUp p [] s) (motion : MotionOk s) (hfired : p.fired + p.dropped.total = 0)
    (hfinished : p.rowsFinished = 0) : PlanOk noRow noPage s := by
  obtain ⟨q, hq, hledger⟩ := h.record
  obtain ⟨hid, -, hbars, hlength, -, hcount, hqfinished⟩ := ledger_fields hledger
  refine h.plan.close fun x hx _ hxp => ?_
  obtain rfl := List.inj_on_of_nodup_map h.plan.sound.ids_distinct hx hq (hxp.trans hid.symm)
  have hnone : ∀ r ∈ pageRows s x, decidedLines s x r = 0 := fun r hr => by
    obtain ⟨hrow, hbar⟩ := mem_pageRows.mp hr
    obtain ⟨c, hc⟩ := Option.ne_none_iff_exists'.mp (h.taken r hrow (hbars ▸ hbar) List.not_mem_nil)
    obtain ⟨row, hr', hcursor⟩ := Option.bind_eq_some_iff.mp hc
    obtain ⟨y, hy, start, hat, -⟩ := h.plan.places r row c hr' hcursor
    rw [decidedLines_eq, hc]
    simp only [decidedAt]
    by_cases hpage : c.page = x.id
    · rw [if_pos hpage]
      exact h.zero r c hc (hpage.trans hid)
    · have hplace := h.last y hy hat.started fun he => hpage (hat.named.symm.trans (he.trans hid.symm))
      rw [if_neg hpage, ← hat.named, hid, if_neg (Nat.not_lt.mpr hplace.le)]
  have hpos := (motion.lengths x hx).1
  refine ⟨?_, ?_⟩
  · rw [hcount, hfired, List.map_congr_left hnone]
    simp
  · rw [hqfinished, hfinished, eq_comm, List.length_eq_zero_iff, List.filter_eq_nil_iff]
    intro r hr
    rw [hnone r hr]
    simp only [decide_eq_true_eq]
    omega

theorem takeUpStarts_begun (n : Nat) (p : Page) (T S : Nat) (rs : List RowId) (s : State) :
    takeUpStarts n p rs s = takeUpStarts n (p.begun T S) rs s := by
  induction rs generalizing s with
  | nil => rfl
  | cons r rs ih => exact ih _

section
variable {front back : List Page} (ok : PlanOk noRow noPage s) (hpages : s.pages = front ++ p :: back)
  (hopen : p.state = .opened)
include ok hpages hopen

theorem not_on_opened {r : RowId} {c : Cursor} (hc : (s.row r).bind (·.cursor) = some c) : c.page ≠ p.id := by
  rintro he
  obtain ⟨row, hrow, hcursor⟩ := Option.bind_eq_some_iff.mp hc
  obtain ⟨q, hq, start, hat, -⟩ := ok.places r row c hrow hcursor
  obtain rfl := List.inj_on_of_nodup_map ok.sound.ids_distinct hq
    (hpages ▸ List.mem_append_right _ List.mem_cons_self) (hat.named.trans he)
  exact absurd (hopen.symm.trans hat.started) (by simp)

/-- Behind an OPEN page no page is STARTED or ever was. -/
theorem behind_opened {q : Page} (hq : q ∈ back) : q.state ≠ .started ∧ q.trigger = none := by
  have hlast := ok.sound.opened_last
  have hapart := ok.sound.apart
  rw [hpages, List.pairwise_append, List.pairwise_cons] at hlast hapart
  obtain ⟨-, ⟨hlastBack, -⟩, -⟩ := hlast
  obtain ⟨-, ⟨hapartBack, -⟩, -⟩ := hapart
  refine ⟨fun hs => hlastBack q hq hs hopen, ?_⟩
  cases hT : q.trigger with
  | none => rfl
  | some T => exact absurd hopen (hapartBack q hq T hT).1

variable (hfront : ∀ q ∈ front, q.state ≠ .opened)
  (hlocks : ∀ q ∈ s.pages, ∀ T, q.trigger = some T →
    T + lockoutLength q.length s.motion.pitch s.motion.gap ≤ s.motion.hwm)
  (hlock : s.motion.lockoutEnd = s.motion.hwm + lockoutLength p.length s.motion.pitch s.motion.gap)
include hfront hlocks hlock

/-- The record of the oldest OPEN page, started at HWM when every lockout has passed. -/
theorem planOk_begun :
    PlanOk noRow (· = p.id)
      (s.withPages (front ++ p.begun s.motion.hwm (s.motion.hwm + s.motion.delay) :: back)) := by
  have hrecord := ok.sound.records p (hpages ▸ List.mem_append_right _ List.mem_cons_self)
  obtain ⟨-, hfinished, -, -, habandoned, hmark⟩ := hrecord.opened hopen
  have hbegun : PageSound s (p.begun s.motion.hwm (s.motion.hwm + s.motion.delay)) :=
    { hrecord with
      triggered := rfl
      opened := fun h => nomatch h
      started := fun _ => ⟨habandoned, hmark, hfinished.trans_lt hrecord.rows_pos⟩
      done := fun h => nomatch h
      timed := fun T hT => by
        obtain rfl := Option.some.inj hT
        exact ⟨rfl, Nat.le_refl _, hlock.ge⟩ }
  have hsound := ok.sound.replace (p' := p.begun s.motion.hwm (s.motion.hwm + s.motion.delay)) hpages rfl hbegun
    (fun h => nomatch h) (fun q hq _ => hfront q hq)
    (fun q hq T T' hT hT' => by
      obtain rfl := Option.some.inj hT'
      exact hlocks q (hpages ▸ List.mem_append_left _ hq) T hT)
    fun q hq T T' _ hT' => by
      rw [(behind_opened ok hpages hopen hq).2] at hT'
      cases hT'
  exact ok.replace hpages hsound rfl rfl rfl (fun _ hn => absurd rfl hn) (fun _ _ h => h.elim)
    fun r c hc he => absurd he (not_on_opened ok hpages hopen hc)

theorem takingUp_begun (motion : MotionOk s) (env : Outside) :
    TakingUp (p.begun s.motion.hwm (s.motion.hwm + s.motion.delay)) (rowOrder env)
      (s.withPages (front ++ p.begun s.motion.hwm (s.motion.hwm + s.motion.delay) :: back)) := by
  have hplan := planOk_begun ok hpages hopen hfront hlocks hlock
  have hids := hplan.sound.ids_at rfl
  refine ⟨hplan, ⟨_, List.mem_append_right _ List.mem_cons_self, rfl⟩,
    ⟨_, rfl, Nat.lt_add_of_pos_right motion.delay.1⟩, fun x hx hs hne => ?_,
    fun r c hc he => absurd he (not_on_opened ok hpages hopen hc), fun r _ _ hn => absurd (mem_rowOrder env r) hn⟩
  rw [State.withPages_pages, placeOf_at hids]
  rcases List.mem_append.mp hx with hx | hx
  · exact placeOf_append_lt hx
  · rcases List.mem_cons.mp hx with rfl | hx
    · exact absurd rfl hne
    · exact absurd hs (behind_opened ok hpages hopen hx).1

/-- A page started at HWM, every lockout having passed. -/
theorem planOk_startPage (motion : MotionOk s) (env : Outside) :
    PlanOk noRow noPage (startPage env p s.motion.hwm (s.motion.hwm + s.motion.delay) s) := by
  obtain ⟨-, hfinished, hfired, hdropped, -⟩ :=
    (ok.sound.records p (hpages ▸ List.mem_append_right _ List.mem_cons_self)).opened hopen
  have htaking := takingUp_begun ok hpages hopen hfront hlocks hlock motion env
  have hupdate : s.updatePage p.id (fun q => q.begun s.motion.hwm (s.motion.hwm + s.motion.delay)) =
      s.withPages (front ++ p.begun s.motion.hwm (s.motion.hwm + s.motion.delay) :: back) :=
    updatePage_at (ok.sound.ids_at hpages) hpages _
  have hevent : RowEvent s (s.withPages (front ++ p.begun s.motion.hwm (s.motion.hwm + s.motion.delay) :: back)) := by
    rw [← hupdate]
    exact rowEvent_updatePage _ _ _ fun _ => rfl
  have hstart : startPage env p s.motion.hwm (s.motion.hwm + s.motion.delay) s =
      evaluateStarve (takeUpStarts env.fetched (p.begun s.motion.hwm (s.motion.hwm + s.motion.delay)) (rowOrder env)
        (s.withPages (front ++ p.begun s.motion.hwm (s.motion.hwm + s.motion.delay) :: back))) := by
    rw [← hupdate, ← takeUpStarts_begun]
    rfl
  have hmotion := motionOk_of_rowEvent motion hevent
  rw [hstart]
  refine PlanOk.of_schedule ?_ (steady_evaluateStarve _).schedule
  refine (takingUp_takeUpStarts htaking hmotion rfl env.fetched).close
    (motionOk_of_rowEvent hmotion (rowEvent_takeUpStarts _ _ _ _)) ?_ hfinished
  exact show p.fired + p.dropped.total = 0 by rw [hfired, hdropped]

end

theorem planOk_judgeTrigger (ok : PlanOk noRow noPage s) (motion : MotionOk s) (env : Outside) :
    PlanOk noRow noPage (judgeTrigger env s) := by
  unfold judgeTrigger
  dsimp only
  split
  · exact ok.of_schedule rfl
  · split
    · exact ok.of_schedule rfl
    · rename_i hlock
      have hpast : ∀ n, s.motion.lockoutEnd ≤ s.motion.hwm + n := fun n =>
        (Nat.not_lt.mp hlock).trans (Nat.le_add_right _ _)
      split
      · refine (ok.of_motion (t := s.updateMotion fun m => { m with lastTrigger := m.hwm, lockoutEnd := m.hwm + m.gap })
          ?_ rfl rfl rfl rfl).of_schedule rfl
        exact { MotionOn.refl s.motion with lockoutEnd := hpast _ }
      · rename_i p hp
        obtain ⟨hopen, front, back, hpages, hfront⟩ := List.find?_eq_some_iff_append.mp hp
        refine planOk_startPage (s := s.updateMotion fun m => { m with
          lastTrigger := m.hwm
          lockoutEnd := m.hwm + lockoutLength p.length m.pitch m.gap }) (ok.of_motion ?_ rfl rfl rfl rfl) hpages
          (by simpa using hopen) (fun q hq => by simpa using hfront q hq) (fun q hq T hT => ?_) rfl ?_ env
        · exact { MotionOn.refl s.motion with lockoutEnd := hpast _ }
        · exact ((ok.sound.records q hq).timed T hT).2.2.trans (Nat.not_lt.mp hlock)
        · exact { motion with
            trigger_le := Nat.le_refl _
            lockout_le := Nat.add_le_add_left
              (lockoutLength_le (motion.lengths p (mem_of_oldestOpen hp).1).2 motion.pitch.2 motion.gap.2) _ }

/-! ### Abort -/

/-- The rows are leaving the page p: those that still stand on it are in `rs`. -/
structure Leaving (p : Page) (rs : List RowId) (s : State) : Prop where
  plan : PlanOk noRow (· = p.id) s
  record : ∃ q ∈ s.pages, q.ledger = p.ledger
  gone : ∀ r c, (s.row r).bind (·.cursor) = some c → c.page = p.id → r ∈ rs

theorem Leaving.of_schedule {rs : List RowId} (h : Leaving p rs s) (hs : t.schedule = s.schedule) :
    Leaving p rs t := by
  refine ⟨h.plan.of_schedule hs, ?_, fun r c hc => ?_⟩
  · obtain ⟨q, hq, hledger⟩ := h.record
    obtain ⟨q', hq', he⟩ := mem_of_ledger (congrArg Schedule.pages hs.symm) hq
    exact ⟨q', hq', he.symm.trans hledger⟩
  · rw [(cursor_of_schedule hs r).2] at hc
    exact h.gone r c hc

theorem leaving_leavePage {r : RowId} {rs : List RowId} (h : Leaving p (r :: rs) s) (motion : MotionOk s) (n : Nat) :
    Leaving p rs (leavePage n p.id r s) := by
  have hskip : (∀ c, (s.row r).bind (·.cursor) = some c → c.page ≠ p.id) → Leaving p rs s := fun hr =>
    { h with
      gone := fun x c hc hpage => by
        refine (List.mem_cons.mp (h.gone x c hc hpage)).resolve_left ?_
        rintro rfl
        exact hr c hc hpage }
  unfold leavePage
  split
  · rename_i hnone
    exact hskip fun c hc => by simp [hnone] at hc
  · rename_i c hc
    split
    · rename_i hpage
      have hclear := schedule_clearLatch r s
      have h1 := h.of_schedule hclear
      have hkept : (clearLatch r s).pages = s.pages := by
        unfold clearLatch
        split <;> rfl
      rw [← (cursor_of_schedule hclear r).2] at hc
      obtain ⟨row, hrow, hcursor⟩ := Option.bind_eq_some_iff.mp hc
      obtain ⟨p', hp', start, hat, -⟩ := h1.plan.places r row c hrow hcursor
      obtain ⟨front, back, hpages⟩ := List.append_of_mem hp'
      have hnext : nextStarted s.pages p.id (rowBar r) =
          back.find? fun q => q.state = .started && entry q.bars (rowBar r) := by
        rw [← hkept, hpages, ← hpage, ← hat.named]
        exact nextStarted_at (h1.plan.sound.ids_at hpages) _
      rw [hnext]
      have hplan := h1.plan.takeUp (late' := noRow) (motionOk_of_schedule motion hclear) hpages hrow hcursor
        hat.named.symm (fun _ _ => id) fun id => by rw [hat.named, hpage]
      have hmoved := rowMoved_takeUp hrow (back.find? fun q => q.state = .started && entry q.bars (rowBar r))
      refine Leaving.of_schedule ⟨hplan, ?_, fun x c' hc' hpage' => ?_⟩ (schedule_beginLoad n r _)
      · obtain ⟨q, hq, hledger⟩ := h1.record
        exact ⟨q, by cases back.find? (fun q => q.state = .started && entry q.bars (rowBar r)) <;> exact hq, hledger⟩
      · by_cases hxr : x = r
        · subst hxr
          rw [hmoved.same] at hc'
          obtain ⟨q, hq, rfl⟩ := Option.map_eq_some_iff.mp hc'
          have hback := List.mem_of_find?_eq_some hq
          exact absurd (hpage'.trans (hpage.symm.trans hat.named.symm))
            (back_ids (h1.plan.sound.ids_at hpages) q hback)
        · rw [hmoved.others x hxr] at hc'
          exact (List.mem_cons.mp (h1.gone x c' hc' hpage')).resolve_left hxr
    · rename_i hpage
      refine hskip fun c' hc' => ?_
      obtain rfl := Option.some.inj (hc.symm.trans hc')
      exact hpage

theorem leaving_leavePages {rs : List RowId} (h : Leaving p rs s) (motion : MotionOk s) (n : Nat) :
    Leaving p [] (leavePages n p.id rs s) := by
  induction rs generalizing s with
  | nil => exact h
  | cons r rs ih =>
    exact ih (leaving_leavePage h motion n) (motionOk_of_rowEvent motion (rowEvent_leavePage n p.id r s))

/-- The record of an aborted page. -/
theorem PageSound.abort (h : PageSound s p) (hstate : p.state ≠ .done)
    (hle : p.fired + p.dropped.total ≤ p.length * p.rows) : PageSound s p.abort := by
  have htriggered := h.triggered
  exact
    { h with
      aborted_flag := by
        cases hp : p.state <;> simp [Page.abort, hp]
      triggered := by
        cases hp : p.state with
        | done => exact absurd hp hstate
        | opened => simpa [Page.abort, hp] using htriggered
        | started => simpa [Page.abort, hp] using htriggered
      opened := fun hs => nomatch hs
      started := fun hs => nomatch hs
      done := fun _ => by
        refine ⟨rfl, ?_, fun hm => ?_⟩
        · simp only [Page.abort]
          omega
        · cases hp : p.state <;> simp [Page.abort, hp] at hm }

/-- A page's lines are at least those counted. -/
theorem PlanOk.counted_le (ok : PlanOk noRow noPage s) (hp : p ∈ s.pages) (hstate : p.state ≠ .done) :
    p.fired + p.dropped.total ≤ p.length * p.rows := by
  have hrecord := ok.sound.records p hp
  cases hs : p.state with
  | done => exact absurd hs hstate
  | opened =>
    obtain ⟨-, -, hfired, hdropped, -⟩ := hrecord.opened hs
    rw [hfired, hdropped]
    exact Nat.zero_le _
  | started =>
    rw [hrecord.rows]
    refine (ok.accounts p hp hs id).count_le fun r _ => ?_
    rw [decidedLines_eq]
    cases hc : (s.row r).bind (·.cursor) with
    | none => exact Nat.le_refl _
    | some c =>
      obtain ⟨row, hrow, hcursor⟩ := Option.bind_eq_some_iff.mp hc
      obtain ⟨q, hq, start, hat, -⟩ := ok.places r row c hrow hcursor
      simp only [decidedAt]
      split
      · rename_i hpage
        obtain rfl := List.inj_on_of_nodup_map ok.sound.ids_distinct hq hp (hat.named.trans hpage)
        exact hat.line.le
      · split
        · exact Nat.le_refl _
        · exact Nat.zero_le _

theorem planOk_abortPage (ok : PlanOk noRow noPage s) (motion : MotionOk s) (hp : p ∈ s.pages)
    (hstate : p.state ≠ .done) (env : Outside) : PlanOk noRow noPage (abortPage env p s) := by
  have hle := ok.counted_le hp hstate
  have hleaving : Leaving p (rowOrder env) s :=
    ⟨ok.weaken (fun _ => id) fun _ h => h.elim, ⟨p, hp, rfl⟩, fun r _ _ _ => mem_rowOrder env r⟩
  have hleft := leaving_leavePages hleaving motion env.fetched
  unfold abortPage
  dsimp only
  generalize leavePages env.fetched p.id (rowOrder env) s = u at hleft ⊢
  refine PlanOk.of_schedule ?_
    ((steady_storePageEnd _ _).trans ((steady_judgeChangeovers _ _).trans (steady_reportDone _ _))).schedule
  obtain ⟨q, hq, hledger⟩ := hleft.record
  obtain ⟨hid, hqstate, -, hlength, -, hcount, -⟩ := ledger_fields hledger
  have hrows : q.rows = p.rows := show q.ledger.rows = p.ledger.rows by rw [hledger]
  obtain ⟨front, back, hpages⟩ := List.append_of_mem hq
  have habort : PageSound u q.abort :=
    (hleft.plan.sound.records q hq).abort (hqstate ▸ hstate) (by rwa [hcount, hlength, hrows])
  rw [← hid, updatePage_at (hleft.plan.sound.ids_at hpages) hpages]
  exact hleft.plan.replace hpages (hleft.plan.sound.recount hpages rfl habort (fun hs => nomatch hs)
    (fun hs => nomatch hs) rfl rfl) rfl rfl rfl (fun hs => nomatch hs)
    (fun id hne hl => absurd (hl.trans hid.symm) hne) fun r c hc he => nomatch hleft.gone r c hc (he.trans hid)

end

end Sys2Proof.Machine
end

section
/-! PROOF. The plan: pages opened and released (R37, R38, R47), the part outside ONLINE (R97, R155 to R160), and the
statements: every step keeps the page queue and its accounts (O6) and the rows (O11). -/

namespace Sys2Proof.Machine

section
variable {s t : State}

/-! ### Outside ONLINE -/

/-- There is nothing to plan: no page, and no row at work. -/
structure Unplanned (s : State) : Prop where
  pages : s.pages = []
  idle : ∀ r, (s.row r).bind (·.cursor) = none

theorem Unplanned.plan (h : Unplanned s) : PlanOk noRow noPage s := planOk_of_no_work h.pages h.idle

theorem unplanned_of_offline (h : OperatingOk s) (seats : SeatsOk noRow s) (hop : s.control.op ≠ .online) :
    Unplanned s := by
  refine ⟨by_contra fun hne => hop (h.pages_online hne), fun r => ?_⟩
  cases hrow : s.row r with
  | none => rfl
  | some row => exact ((seats.row hrow).offline_idle hop).1

theorem unplanned_teardown (s : State) : Unplanned (teardown s) := by
  refine ⟨by rw [teardown_eq], fun r => ?_⟩
  rw [teardown_row]
  cases s.row r <;> rfl

theorem unplanned_created (hpages : s.pages = []) (hrows : s.rows = createdRows s.geometry) : Unplanned s := by
  refine ⟨hpages, fun r => ?_⟩
  rw [State.row, hrows, createdRows, entry_ofFn]
  split <;> rfl

theorem Unplanned.of_frame (h : Unplanned s) (hpages : t.pages = s.pages) (hrows : t.rows = s.rows) : Unplanned t :=
  ⟨hpages.trans h.pages, fun r => by rw [State.row_congr hrows]; exact h.idle r⟩

theorem unplanned_goOnlineNext (h : Unplanned s) (p : PortId) : Unplanned (goOnlineNext p s) := by
  unfold goOnlineNext
  dsimp only
  split
  · exact unplanned_created h.pages rfl
  · exact h.of_frame rfl rfl

theorem unplanned_enterSetup (h : Unplanned s) (clear : Bool) (count : Nat) : Unplanned (enterSetup clear count s) := by
  refine ⟨?_, fun r => ?_⟩
  · cases clear <;> exact h.pages
  · have hnone : (enterSetup clear count s).row r = none := entry_replicate none r
    rw [hnone]
    rfl

theorem rowsDefined_of_operating (h : OperatingOk s) : RowsDefined s := fun r hr => by
  rw [h.rows_exist, Bool.and_eq_true] at hr
  exact hr.2

/-! ### OPEN PAGE -/

theorem placeOf_append_mem {ps rest : List Page} {q : Page} (hq : q ∈ ps) :
    placeOf (ps ++ rest) q.id = placeOf ps q.id := by
  induction ps with
  | nil => cases hq
  | cons p ps ih =>
    rw [List.cons_append, placeOf_cons, placeOf_cons]
    split
    · rfl
    · rename_i hne
      rw [ih ((List.mem_cons.mp hq).resolve_left fun he => hne (he ▸ rfl))]

theorem exists_bar_of_readBarSet {n : Nat} (hpos : n ≠ 0) (hle : n ≤ 15) : ∃ b, entry (readBarSet n) b = true := by
  by_contra hnone
  have h0 : decide (n % 2 = 1) = false := Bool.eq_false_iff.mpr (not_exists.mp hnone 0)
  have h1 : decide (n / 2 % 2 = 1) = false := Bool.eq_false_iff.mpr (not_exists.mp hnone 1)
  have h2 : decide (n / 4 % 2 = 1) = false := Bool.eq_false_iff.mpr (not_exists.mp hnone 2)
  have h3 : decide (n / 8 % 2 = 1) = false := Bool.eq_false_iff.mpr (not_exists.mp hnone 3)
  simp only [decide_eq_false_iff_not] at h0 h1 h2 h3
  omega

/-- `OperatingOk` of the row channels: they exist for the rows of defined heads while ONLINE or DRAINING. -/
def RowsExist (s : State) : Prop :=
  ∀ r : RowId, (s.row r).isSome =
    ((decide (s.control.op = .online) || decide (s.control.op = .draining)) &&
      (entry s.geometry.heads (portOf r)).isSome)

/-- A page whose bars all have heads, and are not none, has rows while ONLINE. -/
theorem rowsInBars_pos (hexist : RowsExist s) (hop : s.control.op = .online) {bars : Vector Bool 4} {b : BarId}
    (hb : entry bars b = true) (hheads : hasHeads s.geometry b = true) : 0 < rowsInBars s bars := by
  obtain ⟨p, hp, hdefined⟩ := hasHeads_iff.mp hheads
  refine List.length_pos_of_mem (a := rowOf p .A) (List.mem_filter.mpr ⟨mem_allRows _, ?_⟩)
  rw [rowBar, portOf_rowOf, hp, hb, hexist, portOf_rowOf, hop, hdefined]
  rfl

theorem pageSound_newPage (hexist : RowsExist s) (hop : s.control.op = .online) {ps : List Byte}
    (hpass : openFailure ps s = none) :
    PageSound s (newPage s (fieldAt ps 0 2) (fieldAt ps 2 2) (readBarSet (fieldAt ps 4 1))) := by
  simp only [openFailure, check_eq_none] at hpass
  obtain ⟨-, -, hbars, hheads, -⟩ := hpass
  obtain ⟨b, hb⟩ := exists_bar_of_readBarSet (n := fieldAt ps 4 1) (by omega) (by omega)
  have hhas : hasHeads s.geometry b = true := by
    simp only [Bool.not_eq_true, List.any_eq_false, Bool.and_eq_true, not_and, Bool.not_eq_true'] at hheads
    simpa using hheads b (mem_allBars b) hb
  exact
    { rows := rfl
      rows_pos := rowsInBars_pos hexist hop hb hhas
      expected := fun x => by
        simp only [newPage, entry_map]
        rfl
      blank_le := Nat.le_refl 0
      dropped_flag := rfl
      aborted_flag := rfl
      triggered := rfl
      opened := fun _ => ⟨rfl, rfl, rfl, rfl, rfl, rfl⟩
      started := fun hs => nomatch hs
      done := fun hs => nomatch hs
      timed := fun _ hT => nomatch hT }

/-- An OPEN page with a new id at the tail of the queue. -/
theorem planOk_append (ok : PlanOk noRow noPage s) {p : Page} (hp : PageSound s p) (hopen : p.state = .opened)
    (hnew : ∀ q ∈ s.pages, q.id ≠ p.id) (hroom : s.pages.length < 8) :
    PlanOk noRow noPage (s.withPages (s.pages ++ [p])) := by
  have htrigger : p.trigger = none := by
    have := hp.triggered
    simpa [hopen] using this
  have hacross : ∀ {R : Page → Page → Prop}, s.pages.Pairwise R → (∀ q ∈ s.pages, R q p) →
      (s.pages ++ [p]).Pairwise R := fun hR hlast =>
    List.pairwise_append.mpr ⟨hR, List.pairwise_singleton _ _, fun q hq x hx => List.mem_singleton.mp hx ▸ hlast q hq⟩
  have hold : ∀ q ∈ s.pages ++ [p], q.state = .started → q ∈ s.pages := fun q hq hs =>
    (List.mem_append.mp hq).resolve_right fun h => by
      obtain rfl := List.mem_singleton.mp h
      exact absurd (hopen.symm.trans hs) (by simp)
  refine ⟨?_, fun q hq hs hn => ?_, fun r row c hrow hc => ?_⟩
  · exact
      { length_le := by
          rw [State.withPages_pages, List.length_append]
          exact hroom
        ids_distinct := by
          rw [State.withPages_pages, List.map_append, List.nodup_append]
          refine ⟨ok.sound.ids_distinct, List.nodup_singleton _, fun id hid x hx => ?_⟩
          obtain ⟨q, hq, rfl⟩ := List.mem_map.mp hid
          obtain rfl := List.mem_singleton.mp hx
          exact hnew q hq
        opened_last := hacross ok.sound.opened_last fun q hq hs => absurd (hopen.symm.trans hs) (by simp)
        apart := hacross ok.sound.apart fun q hq T' hT' => by
          rw [htrigger] at hT'
          cases hT'
        records := fun q hq => by
          rcases List.mem_append.mp hq with hq | hq
          · exact { ok.sound.records q hq with }
          · obtain rfl := List.mem_singleton.mp hq
            exact { hp with } }
  · refine (ok.accounts q (hold q hq hs) hs hn).of_decided rfl (fun r _ => ?_) rfl rfl rfl
    rw [decidedLines_eq, decidedLines_eq]
    change decidedAt (s.pages ++ [p]) q ((s.row r).bind (·.cursor)) = _
    cases hc : (s.row r).bind (·.cursor) with
    | none => rfl
    | some c =>
      obtain ⟨row, hrow, hcursor⟩ := Option.bind_eq_some_iff.mp hc
      obtain ⟨x, hx, start, hat, -⟩ := ok.places r row c hrow hcursor
      simp only [decidedAt, ← hat.named, placeOf_append_mem hx, placeOf_append_mem (hold q hq hs)]
  · obtain ⟨x, hx, start, hat, hahead⟩ := ok.places r row c hrow hc
    exact ⟨x, List.mem_append_left _ hx, start, { hat with }, hahead⟩

theorem planOk_judgeOpenPage (hexist : RowsExist s) (ok : PlanOk noRow noPage s) (ps : List Byte) :
    PlanOk noRow noPage (judgeOpenPage ps s).1 := by
  unfold judgeOpenPage
  split
  · exact ok
  · rename_i hop
    split
    · exact ok
    · rename_i hpass
      split
      · exact ok
      · rename_i hroom
        have hnew := hpass
        simp only [openFailure, check_eq_none] at hnew
        obtain ⟨-, -, -, -, hid⟩ := hnew
        rw [reply_fst]
        refine PlanOk.of_schedule (s := s.withPages (s.pages ++ [_])) ?_ (steady_refreshCursors _).schedule
        refine planOk_append ok (pageSound_newPage hexist (by simpa using hop) hpass) rfl (fun q hq he => ?_)
          (Nat.not_le.mp hroom)
        have hnone : findPage s.pages (fieldAt ps 0 2) = none := by simpa using hid
        exact List.find?_eq_none.mp hnone q hq (decide_eq_true he)

/-! ### RELEASE PAGE -/

/-- Pages keep their order when another is taken out. -/
theorem placeOf_filter_lt {ps : List Page} {id i j : Nat} (hi : i ≠ id) (hj : j ≠ id) :
    placeOf (ps.filter fun p => p.id ≠ id) i < placeOf (ps.filter fun p => p.id ≠ id) j ↔
      placeOf ps i < placeOf ps j := by
  induction ps with
  | nil => rfl
  | cons p ps ih =>
    by_cases hp : p.id = id
    · rw [List.filter_cons_of_neg (by simp [hp]), ih, placeOf_cons, placeOf_cons, if_neg (hp ▸ hi.symm),
        if_neg (hp ▸ hj.symm)]
      exact Nat.add_lt_add_iff_right.symm
    · rw [List.filter_cons_of_pos (by simpa using hp)]
      rw [placeOf_cons, placeOf_cons, placeOf_cons, placeOf_cons]
      split <;> split
      · rfl
      · simp only [Nat.zero_lt_succ]
      · simp only [Nat.not_lt_zero]
      · simpa only [Nat.add_lt_add_iff_right] using ih

/-- A DONE page taken out of the queue. -/
theorem planOk_removed (ok : PlanOk noRow noPage s) {p : Page} (hp : p ∈ s.pages) (hdone : p.state = .done) :
    PlanOk noRow noPage (s.withPages (s.pages.filter fun q => q.id ≠ p.id)) := by
  have hsub : ∀ {q : Page}, q ∈ s.pages.filter (fun q => q.id ≠ p.id) → q ∈ s.pages := List.mem_of_mem_filter
  have hstarted : ∀ q ∈ s.pages, q.state = .started → q.id ≠ p.id := fun q hq hs he => by
    obtain rfl := List.inj_on_of_nodup_map ok.sound.ids_distinct hq hp he
    exact absurd (hdone.symm.trans hs) (by simp)
  refine ⟨?_, fun q hq hs hn => ?_, fun r row c hrow hc => ?_⟩
  · exact
      { length_le := (List.length_filter_le _ _).trans ok.sound.length_le
        ids_distinct := ok.sound.ids_distinct.sublist (List.filter_sublist.map _)
        opened_last := ok.sound.opened_last.filter _
        apart := ok.sound.apart.filter _
        records := fun q hq => { ok.sound.records q (hsub hq) with } }
  · refine (ok.accounts q (hsub hq) hs hn).of_decided rfl (fun r _ => ?_) rfl rfl rfl
    rw [decidedLines_eq, decidedLines_eq]
    change decidedAt (s.pages.filter fun q => q.id ≠ p.id) q ((s.row r).bind (·.cursor)) = _
    cases hc : (s.row r).bind (·.cursor) with
    | none => rfl
    | some c =>
      obtain ⟨row, hrow, hcursor⟩ := Option.bind_eq_some_iff.mp hc
      obtain ⟨x, hx, start, hat, -⟩ := ok.places r row c hrow hcursor
      simp only [decidedAt, ← hat.named,
        placeOf_filter_lt (hstarted q (hsub hq) hs) (hstarted x hx hat.started)]
  · obtain ⟨x, hx, start, hat, hahead⟩ := ok.places r row c hrow hc
    exact ⟨x, List.mem_filter.mpr ⟨hx, by simpa using hstarted x hx hat.started⟩, start, { hat with }, hahead⟩

theorem planOk_judgeReleasePage (ok : PlanOk noRow noPage s) (ps : List Byte) :
    PlanOk noRow noPage (judgeReleasePage ps s).1 := by
  unfold judgeReleasePage
  split
  · exact ok
  · split
    · exact ok
    · split
      · exact ok
      · rename_i p hfind
        split
        · exact ok
        · rename_i hdone
          rw [reply_fst]
          exact (planOk_removed ok (List.mem_of_find?_eq_some hfind) (by simpa using hdone)).of_schedule rfl

theorem planOk_judgeAbortPage (ok : PlanOk noRow noPage s) (motion : MotionOk s) (ps : List Byte) (env : Outside) :
    PlanOk noRow noPage (judgeAbortPage ps env s).1 := by
  unfold judgeAbortPage
  split
  · exact ok
  · split
    · exact ok
    · split
      · exact ok
      · rename_i p hfind
        split
        · exact ok
        · rename_i hdone
          rw [reply_fst]
          exact planOk_abortPage ok motion (List.mem_of_find?_eq_some hfind) hdone env

/-! ### Operating states -/

theorem planOk_beginDraining (clear : Bool) (s : State) : PlanOk noRow noPage (beginDraining clear s).1 :=
  (unplanned_teardown _).plan

theorem planOk_judgeGoOffline (ok : PlanOk noRow noPage s) (ps : List Byte) :
    PlanOk noRow noPage (judgeGoOffline ps s).1 := by
  unfold judgeGoOffline
  split
  · exact ok
  · split
    · exact ok
    · exact planOk_beginDraining false s

theorem planOk_judgeClear (ok : PlanOk noRow noPage s) (ps : List Byte) : PlanOk noRow noPage (judgeClear ps s).1 := by
  unfold judgeClear
  split
  · exact ok
  · split
    · exact ok
    · split
      · exact planOk_beginDraining true s
      · exact ok.of_schedule rfl

section
variable (hoff : s.control.op ≠ .online → Unplanned s) (ok : PlanOk noRow noPage s)
include hoff ok

theorem planOk_judgeDefineHead (ps : List Byte) : PlanOk noRow noPage (judgeDefineHead ps s).1 := by
  unfold judgeDefineHead
  split
  · exact ok
  · rename_i hop
    have hsetup : s.control.op = .setup := by simpa using hop
    have hset : ∀ p head keep, Unplanned (setHead p head keep s) := fun _ _ _ =>
      (hoff (by simp [hsetup])).of_frame rfl rfl
    split
    · exact ok
    · split
      · exact ok
      · exact ok
      · rw [reply_fst]
        split <;> exact (hset _ _ _).plan

theorem planOk_judgeSetMotion (ps : List Byte) : PlanOk noRow noPage (judgeSetMotion ps s).1 := by
  unfold judgeSetMotion
  split
  · exact ok
  · rename_i hop
    have hsetup : s.control.op = .setup := by simpa using hop
    split
    · exact ok
    · refine (Unplanned.of_frame (s := s) (hoff (by simp [hsetup])) ?_ ?_).plan <;> rfl

end

/-- A probe's outcome; `u` is the part once the link is free again. -/
theorem planOk_endProbe (h : OperatingOk s) (seats : SeatsOk noRow s) (ok : PlanOk noRow noPage s) {p : PortId}
    {w : Work} (hw : probing s p = some w) {u : State} (hu : u.schedule = s.schedule) (hpages : u.pages = s.pages)
    (hrows : u.rows = s.rows) (env : Outside) (cause : Option FaultCause) (answer : Option BriefStatus) :
    PlanOk noRow noPage (endProbe env p w cause answer u) := by
  cases cause with
  | some c => exact ok.of_schedule ((schedule_endProbe_failed env p w c answer u).trans hu)
  | none =>
    obtain ⟨-, hbusy, rfl | rfl⟩ := probing_cases hw
    · have hop : s.control.op ≠ .online := by simp [starting_of_goOnline h hbusy]
      exact (unplanned_goOnlineNext ((unplanned_of_offline h seats hop).of_frame hpages hrows) p).plan
    · cases answer with
      | none => exact ok.of_schedule hu
      | some st => exact ok.of_schedule ((schedule_recovered env p st u).trans hu)

/-! ### All commands -/

theorem planOk_takeRequest {judge : State → State × Answer} (ok : PlanOk noRow noPage s)
    (hj : ∀ l : Link, PlanOk noRow noPage (judge { s with link := l }).1) (code : Byte) (params : List Byte) :
    PlanOk noRow noPage (takeRequest code params judge s) :=
  takeRequest_rule (fun _ _ => ok.of_schedule rfl) (fun _ l _ => (hj l).of_schedule (settled_schedule _)) code params

/-- Every command keeps the plan in order. -/
theorem exec_planOk {c : Instr} (h : OperatingOk s) (motion : MotionOk s) (seats : SeatsOk noRow s)
    (ok : PlanOk noRow noPage s) (hexec : exec c s = .next t) : PlanOk noRow noPage t := by
  have hlink : ∀ l : Link, PlanOk noRow noPage { s with link := l } := fun _ => ok.of_schedule rfl
  have hoff : ∀ l : Link, s.control.op ≠ .online → Unplanned { s with link := l } := fun _ hop =>
    (unplanned_of_offline h seats hop).of_frame rfl rfl
  cases hc : reschedules c with
  | false => exact ok.of_schedule (schedule_exec hc hexec)
  | true =>
    cases c with
    | powerOnReset a b g =>
      obtain rfl := Host.Outcome.next.inj hexec
      refine (Unplanned.mk rfl fun r => ?_).plan
      have hnone : (State.powerOn s.store.memory s.store.damage a b g).row r = none := entry_replicate none r
      exact (congrArg (Option.bind · (·.cursor)) hnone)
    | encoderChange a b env =>
      obtain rfl := Host.Outcome.next.inj hexec
      have hphase : MotionOk ((upset env.upsets s).updateMotion fun m => { m with phaseA := a, phaseB := b }) := by
        exact { motion with }
      have hdefined : RowsDefined ((upset env.upsets s).updateMotion fun m => { m with phaseA := a, phaseB := b }) :=
        fun r => rowsDefined_of_operating h r
      refine planOk_passOn (s := (upset env.upsets s).updateMotion fun m => { m with phaseA := a, phaseB := b })
        (ok.of_motion ?_ rfl rfl rfl rfl) hphase (seatsOk_of_seats seats rfl) hdefined env _
      exact { MotionOn.refl s.motion with }
    | triggerEdge level env =>
      obtain rfl := Host.Outcome.next.inj hexec
      have hlevel : PlanOk noRow noPage
          ((upset env.upsets s).updateMotion fun m => { m with triggerLevel := level }) := by
        refine ok.of_motion ?_ rfl rfl rfl rfl
        exact { MotionOn.refl s.motion with }
      split
      · refine planOk_judgeTrigger hlevel ?_ env
        exact { motion with }
      · exact hlevel
    | probeAnswer port st env =>
      obtain rfl := Host.Outcome.next.inj hexec
      split
      · rename_i w hw
        obtain ⟨hrows, -, -, -, hpages⟩ := takeBrief_frame port st (upset env.upsets s)
        split
        · exact planOk_endProbe (u := freeLink port (takeBrief port st (upset env.upsets s))) h seats ok hw
            (schedule_takeBrief port st (upset env.upsets s)) hpages hrows env _ _
        · exact ok.of_schedule rfl
      · exact ok.of_schedule rfl
    | drainComplete =>
      obtain rfl := Host.Outcome.next.inj hexec
      split
      · rename_i clear count hbusy
        split
        · have hop : s.control.op ≠ .online := by
            have := h.work
            simp only [workFits, hbusy, Work.fits, decide_eq_true_eq] at this
            simp [this]
          exact (unplanned_enterSetup (unplanned_of_offline h seats hop) clear count).plan
        · exact ok
      · exact ok
    | goOffline ps =>
      obtain rfl := Host.Outcome.next.inj hexec
      exact planOk_takeRequest ok (fun l => planOk_judgeGoOffline (hlink l) ps) _ ps
    | clear ps =>
      obtain rfl := Host.Outcome.next.inj hexec
      exact planOk_takeRequest ok (fun l => planOk_judgeClear (hlink l) ps) _ ps
    | defineHead ps =>
      obtain rfl := Host.Outcome.next.inj hexec
      exact planOk_takeRequest ok (fun l => planOk_judgeDefineHead (hoff l) (hlink l) ps) _ ps
    | setMotion ps =>
      obtain rfl := Host.Outcome.next.inj hexec
      exact planOk_takeRequest ok (fun l => planOk_judgeSetMotion (hoff l) (hlink l) ps) _ ps
    | openPage ps =>
      obtain rfl := Host.Outcome.next.inj hexec
      exact planOk_takeRequest ok
        (fun l => planOk_judgeOpenPage (s := { s with link := l }) h.rows_exist (hlink l) ps) _ ps
    | abortPage ps env =>
      obtain rfl := Host.Outcome.next.inj hexec
      refine planOk_takeRequest (s := upset env.upsets s) (ok.of_schedule rfl)
        (fun l => planOk_judgeAbortPage (s := { upset env.upsets s with link := l }) (ok.of_schedule rfl)
          ?_ ps env) _ ps
      exact { motion with }
    | releasePage ps =>
      obtain rfl := Host.Outcome.next.inj hexec
      exact planOk_takeRequest ok (fun l => planOk_judgeReleasePage (hlink l) ps) _ ps
    | _ => cases hc

end

/-! ### Every step -/

/-- What the two statements say is what the ports and the plan say. -/
theorem pages_rows_iff {s : State} : PagesOk s ∧ RowsOk s ↔ PortsOk s ∧ PlanOk noRow noPage s := by
  constructor
  · rintro ⟨pages, rows⟩
    obtain ⟨hseats, hworking, hclearing⟩ := rowsOk_iff.mp rows
    exact ⟨⟨hseats, hclearing⟩, planOk_iff.mpr ⟨pages, hworking⟩⟩
  · rintro ⟨ports, plan⟩
    obtain ⟨hpages, hworking⟩ := planOk_iff.mp plan
    exact ⟨hpages, rowsOk_iff.mpr ⟨ports.seats, hworking, ports.clearing⟩⟩

theorem step_pages_rows {s t : State} (operating : OperatingOk s) (motion : MotionOk s) (pages : PagesOk s)
    (rows : RowsOk s) (hstep : step s = .next t) : PagesOk t ∧ RowsOk t := by
  unfold step at hstep
  split at hstep
  · obtain rfl := Host.Outcome.next.inj hstep
    exact ⟨pages, rows⟩
  · rename_i c rest _
    obtain ⟨ports, plan⟩ := pages_rows_iff.mp ⟨pages, rows⟩
    have hports : PortsOk { s with pending := rest } := ports.of_steady ⟨rfl, rfl, fun _ _ => id⟩
    have hplan : PlanOk noRow noPage { s with pending := rest } := plan.of_schedule rfl
    have hoperating : OperatingOk { s with pending := rest } := { operating with }
    have hmotion : MotionOk { s with pending := rest } := { motion with }
    exact pages_rows_iff.mpr
      ⟨exec_portsOk hoperating hports hstep, exec_planOk hoperating hmotion hports.seats hplan hstep⟩

/-- Settles O6. -/
theorem stepsKeepPagesOk : Obligations.StepsKeepPagesOk := fun _ _ operating motion rows pages hstep =>
  (step_pages_rows operating motion pages rows hstep).1

/-- Settles O11. -/
theorem stepsKeepRowsOk : Obligations.StepsKeepRowsOk := fun _ _ operating motion pages rows hstep =>
  (step_pages_rows operating motion pages rows hstep).2

end Sys2Proof.Machine
end

section
/-! PROOF. Motion and the trigger: changes of the encoder lines without new ground (O30), the new-ground advance (O31),
SET MOTION (O33), and trigger edges that start no page (O34). -/

namespace Sys2Proof.Machine

/-! ### Changes of the encoder lines -/

/-- The class of a turn in the forward cycle (R21). -/
def turnClass : Nat → Option TickClass
  | 0 => none
  | 1 => some .forward
  | 2 => some .illegal
  | _ => some .reverse

theorem classNormal_eq : ∀ pa pb a b : Bool,
    classNormal pa pb a b = turnClass ((quadrant a b + 4 - quadrant pa pb) % 4) := by decide

theorem classify_of_turn {m : Motion} {a b : Bool} {n : Nat}
    (h : (quadrant a b + 4 - quadrant m.phaseA m.phaseB) % 4 = n) :
    classify m a b = (turnClass n).map fun c => if m.encoderSense = .normal then c else c.swap := by
  have hnormal := classNormal_eq m.phaseA m.phaseB a b
  rw [h] at hnormal
  unfold classify
  rw [hnormal]
  cases m.encoderSense with
  | normal => exact Option.map_id'.symm
  | swapped => rfl

/-- The part with the encoder phases at the levels of the lines. -/
def phased (a b : Bool) (env : Outside) (s : State) : State :=
  (upset env.upsets s).updateMotion fun m => { m with phaseA := a, phaseB := b }

theorem exec_encoderChange (a b : Bool) (env : Outside) (s : State) :
    exec (.encoderChange a b env) s = .next (passOn env (classify s.motion a b) (phased a b env s)) := rfl

/-- Outside ONLINE, or where no line has changed, the phase alone follows the lines. -/
theorem exec_encoderChange_followed {a b : Bool} {env : Outside} {s : State}
    (h : s.control.op ≠ .online ∨ classify s.motion a b = none) :
    exec (.encoderChange a b env) s = .next (phased a b env s) := by
  rw [exec_encoderChange]
  refine congrArg _ ?_
  by_cases hop : s.control.op = .online
  · rw [h.resolve_left (not_not.mpr hop)]
    exact if_pos hop
  · exact if_neg hop

section
variable {a b : Bool} {env : Outside} {s : State} (hop : s.control.op = .online)
include hop

theorem exec_encoderChange_illegal (hclass : classify s.motion a b = some .illegal) :
    exec (.encoderChange a b env) s = .next ((phased a b env s).updateMotion Motion.illegalTransition) := by
  rw [exec_encoderChange, hclass]
  exact congrArg _ (if_pos hop)

theorem exec_encoderChange_reverse (hclass : classify s.motion a b = some .reverse) :
    exec (.encoderChange a b env) s = .next ((phased a b env s).updateMotion Motion.reverseTick) := by
  rw [exec_encoderChange, hclass]
  exact congrArg _ (if_pos hop)

theorem exec_encoderChange_forward (hclass : classify s.motion a b = some .forward) :
    exec (.encoderChange a b env) s = .next (forwardTick env (phased a b env s)) := by
  rw [exec_encoderChange, hclass]
  exact congrArg _ (if_pos hop)

/-- A forward tick that leaves HWM where it is raises no arrival. -/
theorem exec_encoderChange_stay (hclass : classify s.motion a b = some .forward) {m : Motion}
    (hm : (phased a b env s).motion.forwardTick = m) (hhwm : m.hwm = s.motion.hwm) :
    exec (.encoderChange a b env) s = .next ((phased a b env s).updateMotion fun _ => m) := by
  subst hm
  rw [exec_encoderChange_forward hop hclass]
  exact congrArg _ (if_neg (Nat.not_lt.mpr hhwm.le))

end

theorem Motion.forwardTick_below {m : Motion} (h : m.pos < m.hwm) :
    m.forwardTick = { m with pos := m.pos + 1, direction := .forward } := if_pos h

theorem Motion.forwardTick_top {m : Motion} (h : m.pos = m.hwm) (htop : m.hwm = 281474976710655) :
    m.forwardTick = { m with direction := .forward } := by
  have hpos : ¬ m.pos < Config.maxPosition := by rw [h, htop]; decide
  rw [Motion.forwardTick, if_neg (by omega), if_neg hpos]

theorem Motion.forwardTick_new {m : Motion} (h : m.pos = m.hwm) (htop : m.hwm < 281474976710655) :
    m.forwardTick = { m with pos := m.pos + 1, hwm := m.hwm + 1, direction := .forward } := by
  have hpos : m.pos < Config.maxPosition := h ▸ htop
  rw [Motion.forwardTick, if_neg (by omega), if_pos hpos]

/-- A reverse tick is held at 0. -/
theorem Motion.reverseTick_eq (m : Motion) :
    m.reverseTick = { m with pos := if m.pos = 0 then 0 else m.pos - 1, direction := .reverse } := by
  have hpos : (if m.pos = 0 then 0 else m.pos - 1) = m.pos - 1 := by split <;> omega
  rw [hpos]
  rfl

/-- Settles O30. -/
theorem ticksWithoutNewGround : Obligations.TicksWithoutNewGround := by
  refine ⟨fun m a b => ⟨classify_of_turn, fun h => (classify_of_turn h).trans (congrArg some (ite_self _)),
    classify_of_turn, classify_of_turn⟩, fun a b env s => ⟨exec_encoderChange_followed, fun hop =>
    ⟨exec_encoderChange_illegal hop, fun hclass => ?_, fun hclass hlt => ?_, fun hclass hpos htop => ?_⟩⟩⟩
  · rw [exec_encoderChange_reverse hop hclass, funext Motion.reverseTick_eq]
    rfl
  · exact exec_encoderChange_stay hop hclass (Motion.forwardTick_below hlt) rfl
  · exact exec_encoderChange_stay hop hclass (Motion.forwardTick_top hpos htop) rfl

/-! ### The new-ground advance -/

/-- What a page keeps from its start to its end. -/
def Page.standing (p : Page) : Nat × Nat × Vector Bool 4 × Nat × Option Nat × Option Nat :=
  (p.id, p.length, p.bars, p.rows, p.trigger, p.start)

/-- Every page keeps its standing. -/
def StandingKept (s t : State) : Prop := t.pages.map Page.standing = s.pages.map Page.standing

section
variable {s t u : State}

theorem StandingKept.trans (h : StandingKept s t) (k : StandingKept t u) : StandingKept s u := Eq.trans k h

theorem standingKept_of_schedule (h : t.schedule = s.schedule) : StandingKept s t :=
  map_of_ledger Page.standing (fun _ => rfl) (congrArg Schedule.pages h)

theorem standingKept_updatePage (s : State) (id : Nat) {f : Page → Page} (hf : ∀ p, (f p).standing = p.standing) :
    StandingKept s (s.updatePage id f) := by
  rw [StandingKept, State.updatePage_pages, changePage, List.map_map]
  refine List.map_congr_left fun p _ => ?_
  rw [Function.comp_apply, apply_ite Page.standing, hf, ite_self]

theorem standingKept_finishPage (id : Nat) (s : State) : StandingKept s (finishPage id s) := by
  have hcount : StandingKept s (s.updatePage id fun p => { p with rowsFinished := p.rowsFinished + 1 }) :=
    standingKept_updatePage s id fun _ => rfl
  unfold finishPage
  dsimp only
  split
  · rename_i p _
    split
    · refine hcount.trans ?_
      have hdone := standingKept_updatePage
        (s.updatePage id fun p => { p with rowsFinished := p.rowsFinished + 1 }) p.id (f := fun q => { q with state := .done }) fun _ => rfl
      exact hdone.trans (standingKept_of_schedule
        ((steady_reportDone p.id _).trans (steady_storePageEnd p.bars _)).schedule)
    · exact hcount
  · exact hcount

theorem standingKept_moveOn (n : Nat) (r : RowId) (c : Cursor) (s : State) : StandingKept s (moveOn n r c s) := by
  unfold moveOn
  split
  · exact rfl
  · split
    · have hplace : StandingKept s (placeCursor r c.page (c.line + 1) s) := rfl
      exact hplace.trans (standingKept_of_schedule (schedule_beginLoad n r _))
    · have htake : StandingKept s (takeUp r (nextStarted s.pages c.page (rowBar r)) s) := by
        cases nextStarted s.pages c.page (rowBar r) <;> exact rfl
      exact (htake.trans (standingKept_finishPage c.page _)).trans
        (standingKept_of_schedule (schedule_beginLoad n r _))

theorem standingKept_fireDecision (n : Nat) (r : RowId) (s : State) : StandingKept s (fireDecision n r s) := by
  unfold fireDecision
  split
  · exact rfl
  · split
    · exact rfl
    · rename_i c _
      split
      · exact rfl
      · rename_i o _
        have hcarry := standingKept_of_schedule (schedule_carryOut r c o s)
        have hcount := standingKept_updatePage (carryOut r c o s) c.page (f := fun p => p.count o) fun p => by
          cases o <;> rfl
        exact ((hcarry.trans hcount).trans (standingKept_moveOn n r c _)).trans (standingKept_of_schedule
          ((steady_judgeRetirement _ _).trans (steady_judgeChangeover _ _)).schedule)

theorem standingKept_arriveAll (n H : Nat) (rs : List RowId) (s : State) : StandingKept s (arriveAll n H rs s) := by
  induction rs generalizing s with
  | nil => exact rfl
  | cons r rs ih =>
    have harrive : StandingKept s (arrive n H r s) := by
      unfold arrive
      split
      · exact standingKept_fireDecision n r s
      · exact rfl
    exact harrive.trans (ih _)

/-- A row that does not stand at H is not touched by the arrivals at H. -/
theorem arriveAll_row (n H : Nat) (rs : List RowId) {r : RowId} (h : (s.row r).bind (·.fire) ≠ some H) :
    (arriveAll n H rs s).row r = s.row r := by
  induction rs generalizing s with
  | nil => rfl
  | cons q rs ih =>
    have harrive : (arrive n H q s).row r = s.row r := by
      by_cases hq : q = r
      · subst hq
        rw [arrive, if_neg h]
      · exact arrive_row_of_ne n H hq s
    exact (ih (harrive ▸ h)).trans harrive

end

/-- Settles O31. -/
theorem newGroundAdvance : Obligations.NewGroundAdvance := by
  intro a b env s hop hclass hpos htop
  have hmotion : (advanced a b env s).motion = { s.motion with
      phaseA := a, phaseB := b, pos := s.motion.pos + 1, hwm := s.motion.hwm + 1, direction := .forward } :=
    Motion.forwardTick_new (m := (phased a b env s).motion) hpos htop
  have hhwm : (advanced a b env s).motion.hwm = s.motion.hwm + 1 := by rw [hmotion]
  have hevent := rowEvent_arriveAll env.fetched (s.motion.hwm + 1) (rowOrder env) (advanced a b env s)
  refine ⟨arriveAll env.fetched (s.motion.hwm + 1) (rowOrder env) (advanced a b env s), ?_,
    hevent.motion.trans hmotion, fun r hr => arriveAll_row _ _ _ hr, ?_, standingKept_arriveAll _ _ _ _⟩
  · have hlt : s.motion.hwm < (advanced a b env s).motion.hwm := hhwm ▸ Nat.lt_succ_self _
    rw [exec_encoderChange_forward hop hclass, ← hhwm]
    exact congrArg _ (if_pos hlt)
  · exact { hevent.toRowsOnly with }

/-! ### SET MOTION -/

/-- The block of a SET MOTION (R154). -/
def motionBlock (pitch delay gap : Nat) (edge : TriggerSense) (sense : EncoderSense) : List Byte :=
  leBytes 4 pitch ++ leBytes 4 delay ++ leBytes 4 gap ++
    [if edge = .rising then 0 else 1, if sense = .normal then 0 else 1]

section
variable {pitch delay gap : Nat} {edge : TriggerSense} {sense : EncoderSense}

theorem motionBlock_length : (motionBlock pitch delay gap edge sense).length = 14 := by simp [motionBlock]

theorem motionBlock_numbers (hpitch : pitch ≤ 4294967295) (hdelay : delay ≤ 16777215) (hgap : gap ≤ 16777215) :
    fieldAt (motionBlock pitch delay gap edge sense) 0 4 = pitch ∧
      fieldAt (motionBlock pitch delay gap edge sense) 4 4 = delay ∧
      fieldAt (motionBlock pitch delay gap edge sense) 8 4 = gap := by
  have h0 := fun rest => fieldAt_append [] rest 4 pitch (by omega)
  have h4 := fun rest => fieldAt_append (leBytes 4 pitch) rest 4 delay (by omega)
  have h8 := fun rest => fieldAt_append (leBytes 4 pitch ++ leBytes 4 delay) rest 4 gap (by omega)
  simp only [List.length_append, leBytes_length, List.length_nil, List.nil_append, List.append_assoc] at h0 h4 h8
  simp only [motionBlock, List.append_assoc]
  exact ⟨h0 _, h4 _, h8 _⟩

theorem motionBlock_senses :
    fieldAt (motionBlock pitch delay gap edge sense) 12 1 = (if edge = .rising then 0 else 1) ∧
      fieldAt (motionBlock pitch delay gap edge sense) 13 1 = (if sense = .normal then 0 else 1) := by
  have hskip := fieldAt_skip (leBytes 4 pitch ++ leBytes 4 delay ++ leBytes 4 gap)
    [if edge = .rising then 0 else 1, if sense = .normal then 0 else 1]
  simp only [List.length_append, leBytes_length] at hskip
  refine ⟨(hskip 0 1).trans ?_, (hskip 1 1).trans ?_⟩
  · cases edge <;> rfl
  · cases sense <;> rfl

theorem settingsBytes_withSettings {m : Motion} {ps : List Byte} (hps : ps = motionBlock pitch delay gap edge sense)
    (hm : m.withSettings ps = { m with
      pitch := pitch, delay := delay, gap := gap, triggerEdge := edge, encoderSense := sense }) :
    (m.withSettings ps).settingsBytes = ps := by
  have hedge : edge.code = if edge = .rising then 0 else 1 := by cases edge <;> rfl
  have hsense : sense.code = if sense = .normal then 0 else 1 := by cases sense <;> rfl
  rw [hm, hps, Motion.settingsBytes, hedge, hsense]
  rfl

/-- SET MOTION past its checks holds the settings and answers with them (R27). -/
theorem judgeSetMotion_accepts {s : State} (hop : s.control.op = .setup) (hpitch : 65536 ≤ pitch ∧ pitch ≤ 4294967295)
    (hdelay : 1 ≤ delay ∧ delay ≤ 16777215) (hgap : 1 ≤ gap ∧ gap ≤ 16777215) :
    judgeSetMotion (motionBlock pitch delay gap edge sense) s =
      ({ s with
          motion := { s.motion with
            pitch := pitch, delay := delay, gap := gap, triggerEdge := edge, encoderSense := sense }
          control := { s.control with motionSet := true } },
        .done .ok (motionBlock pitch delay gap edge sense)) := by
  obtain ⟨h0, h4, h8⟩ := motionBlock_numbers (edge := edge) (sense := sense) hpitch.2 hdelay.2 hgap.2
  obtain ⟨h12, h13⟩ := motionBlock_senses (pitch := pitch) (delay := delay) (gap := gap) (edge := edge) (sense := sense)
  have hedge : (if edge = .rising then 0 else 1) ≤ 1 := by split <;> omega
  have hsense : (if sense = .normal then 0 else 1) ≤ 1 := by split <;> omega
  have hpass : motionFailure (motionBlock pitch delay gap edge sense) = none := by
    simp only [motionFailure, check_eq_none, h0, h4, h8, h12, h13, motionBlock_length, and_true]
    omega
  have hsettings : s.motion.withSettings (motionBlock pitch delay gap edge sense) = { s.motion with
      pitch := pitch, delay := delay, gap := gap, triggerEdge := edge, encoderSense := sense } := by
    rw [Motion.withSettings, h0, h4, h8, h12, h13]
    cases edge <;> cases sense <;> rfl
  unfold judgeSetMotion
  rw [if_neg (not_not.mpr hop), hpass]
  dsimp only
  rw [settingsBytes_withSettings rfl hsettings, hsettings]
  rfl

end

/-- Settles O33. -/
theorem setMotionAccepted : Obligations.SetMotionAccepted := by
  intro pitch delay gap edge sense s htakes hpitch hpitch' hdelay hdelay' hgap hgap' ps
  have hps : ps = motionBlock pitch delay gap edge sense := rfl
  have hlen : ps.length + 1 ≤ 300 := by rw [hps, motionBlock_length]; decide
  have htaken := takeRequest_taken htakes hlen 0x40 (judgeSetMotion ps)
  refine ⟨fun hop => congrArg Host.Outcome.next (htaken.trans ?_), fun hop =>
    congrArg Host.Outcome.next (htaken.trans ?_)⟩
  · rw [hps, judgeSetMotion_accepts (s := admitted 0x40 s) hop ⟨hpitch, hpitch'⟩ ⟨hdelay, hdelay'⟩ ⟨hgap, hgap'⟩]
    exact settled_done (t := { s with
      motion := { s.motion with
        pitch := pitch, delay := delay, gap := gap, triggerEdge := edge, encoderSense := sense }
      control := { s.control with motionSet := true } }) htakes rfl 0x40 .ok _
  · have hrefused : judgeSetMotion ps (admitted 0x40 s) = reply .wrongState [] (admitted 0x40 s) := by
      refine if_pos ?_
      exact fun hsetup => by
        rw [show (admitted 0x40 s).control.op = s.control.op from rfl, hop] at hsetup
        cases hsetup
    rw [hrefused]
    exact settled_reply htakes 0x40 .wrongState []

/-! ### Trigger edges -/

/-- A change of level is an edge of the configured sense (R29). -/
theorem isTriggerEdge_iff {m : Motion} {level : Bool} : isTriggerEdge m level = true ↔
    (m.triggerEdge = .rising ∧ m.triggerLevel = false ∧ level = true) ∨
      (m.triggerEdge = .falling ∧ m.triggerLevel = true ∧ level = false) := by
  unfold isTriggerEdge
  cases m.triggerEdge <;> simp

/-- The part with the trigger level at the level of the line. -/
def triggered (level : Bool) (env : Outside) (s : State) : State :=
  (upset env.upsets s).updateMotion fun m => { m with triggerLevel := level }

theorem exec_triggerEdge_followed {level : Bool} {env : Outside} {s : State}
    (h : ¬ (s.control.op = .online ∧ isTriggerEdge s.motion level = true)) :
    exec (.triggerEdge level env) s = .next (triggered level env s) := congrArg Host.Outcome.next (if_neg h)

theorem exec_triggerEdge_judged {level : Bool} {env : Outside} {s : State} (hop : s.control.op = .online)
    (hedge : isTriggerEdge s.motion level = true) :
    exec (.triggerEdge level env) s = .next (judgeTrigger env (triggered level env s)) :=
  congrArg Host.Outcome.next (if_pos ⟨hop, hedge⟩)

theorem post_eq (t : Topic) (d : Detail) (s : State) :
    post t d s = { s with
      reports := { queue := postTo s.motion.pos t d s.reports.queue, attention := true } } := by
  have hne : (postTo s.motion.pos t d s.reports.queue).isEmpty = false :=
    List.isEmpty_eq_false_iff.mpr (postTo_ne_nil _ t d _)
  rw [post, hne]
  rfl

section
variable {env : Outside} {s : State}

theorem judgeTrigger_reverse (h : s.motion.pos < s.motion.hwm) :
    judgeTrigger env s = post (.triggerRejected .reverse) (.position s.motion.pos) s := if_pos h

theorem judgeTrigger_lockout (hpos : s.motion.pos = s.motion.hwm) (h : s.motion.hwm < s.motion.lockoutEnd) :
    judgeTrigger env s = post (.triggerRejected .lockout) (.position s.motion.pos) s :=
  (if_neg (Nat.not_lt.mpr hpos.ge)).trans (if_pos h)

/-- An edge at HWM past the lockout asks for the oldest OPEN page. -/
theorem judgeTrigger_open (hpos : s.motion.pos = s.motion.hwm) (h : s.motion.lockoutEnd ≤ s.motion.hwm) :
    judgeTrigger env s = match oldestOpen s.pages with
      | none => post .triggerMissed (.position s.motion.hwm)
          (s.updateMotion fun m => { m with lastTrigger := m.hwm, lockoutEnd := m.hwm + m.gap })
      | some p => startPage env p s.motion.hwm (s.motion.hwm + s.motion.delay) (s.updateMotion fun m =>
          { m with lastTrigger := m.hwm, lockoutEnd := m.hwm + lockoutLength p.length m.pitch m.gap }) :=
  ((if_neg (Nat.not_lt.mpr hpos.ge)).trans (if_neg (Nat.not_lt.mpr h))).trans (by cases oldestOpen s.pages <;> rfl)

end

/-- Settles O34. -/
theorem triggerEdgesWithoutPage : Obligations.TriggerEdgesWithoutPage := by
  intro level env s followed edge
  have hedge : isTriggerEdge s.motion level = true ↔ edge := isTriggerEdge_iff
  refine ⟨fun h => exec_triggerEdge_followed fun ⟨hop, he⟩ => h.elim (· hop) (· (hedge.mp he)),
    fun hop he => ⟨fun hlt => ?_, fun hpos hlt => ?_, fun hpos hle hnone => ?_⟩⟩
  · rw [exec_triggerEdge_judged hop (hedge.mpr he), judgeTrigger_reverse (s := triggered level env s) hlt,
      post_eq]
    rfl
  · rw [exec_triggerEdge_judged hop (hedge.mpr he), judgeTrigger_lockout (s := triggered level env s) hpos hlt,
      post_eq]
    rfl
  · have hmissed : oldestOpen (triggered level env s).pages = none :=
      List.find?_eq_none.mpr fun p hp => by simpa using hnone p hp
    rw [exec_triggerEdge_judged hop (hedge.mpr he), judgeTrigger_open (s := triggered level env s) hpos hle, hmissed]
    exact congrArg Host.Outcome.next (post_eq _ _ _)

end Sys2Proof.Machine
end

section
/-! PROOF. The accepted trigger (O35): what a page's start leaves alone, and each row that takes the page up (R32, R39,
R78, R80, R93). -/

namespace Sys2Proof.Machine

/-! ### What taking up a page leaves alone -/

/-- The Motion Unit, the heads and the ports stand, and the page records but for what loads mark in them. -/
structure TookUp (s t : State) : Prop where
  motion : t.motion = s.motion
  heads : t.geometry.heads = s.geometry.heads
  records : t.pages.map Page.ledger = s.pages.map Page.ledger
  ports : t.ports = s.ports

section
variable {s t u : State}

theorem TookUp.refl (s : State) : TookUp s s := ⟨rfl, rfl, rfl, rfl⟩

theorem TookUp.trans (h : TookUp s t) (k : TookUp t u) : TookUp s u :=
  ⟨k.motion.trans h.motion, k.heads.trans h.heads, k.records.trans h.records, k.ports.trans h.ports⟩

theorem tookUp_of_schedule (h : t.schedule = s.schedule) (hports : t.ports = s.ports) : TookUp s t :=
  ⟨congrArg Schedule.motion h, congrArg Schedule.heads h, congrArg Schedule.pages h, hports⟩

theorem tookUp_updateRow (s : State) (r : RowId) (f : Row → Row) : TookUp s (s.updateRow r f) := { TookUp.refl s with }

theorem fetchWords_ports (n : Nat) (r : RowId) (s : State) : (fetchWords n r s).ports = s.ports := by
  unfold fetchWords
  split
  · split
    · rfl
    · exact congrArg Seats.ports (steady_readWords _ _ _ s).seats
  · rfl

theorem beginLoad_ports (n : Nat) (r : RowId) (s : State) : (beginLoad n r s).ports = s.ports := by
  unfold beginLoad
  split
  · split
    · unfold beginLoadAt
      split
      · exact (fetchWords_ports n r _).trans (congrArg Seats.ports (steady_takeStripe _ _ _ _).seats)
      · rfl
    · rfl
  · rfl

theorem tookUp_takeUpStart (n : Nat) (p : Page) (r : RowId) (s : State) : TookUp s (takeUpStart n p r s) := by
  unfold takeUpStart
  split
  · exact TookUp.refl s
  · split
    · exact (tookUp_updateRow s r _).trans (tookUp_of_schedule (schedule_beginLoad n r _) (beginLoad_ports n r _))
    · exact TookUp.refl s

theorem tookUp_takeUpStarts (n : Nat) (p : Page) (rs : List RowId) (s : State) : TookUp s (takeUpStarts n p rs s) := by
  induction rs generalizing s with
  | nil => exact TookUp.refl s
  | cons r rs ih => exact (tookUp_takeUpStart n p r s).trans (ih _)

theorem findPage_of_ledger (h : t.pages.map Page.ledger = s.pages.map Page.ledger) {id : Nat} {p : Page}
    (hp : findPage s.pages id = some p) : ∃ q, findPage t.pages id = some q ∧ q.ledger = p.ledger := by
  have hfind : ∀ ps : List Page, (findPage ps id).map Page.ledger = (ps.map Page.ledger).find? fun q => q.id = id :=
    fun ps => by
      rw [List.find?_map]
      rfl
  have hmap := (hfind t.pages).trans (h ▸ (hfind s.pages).symm)
  rw [hp, Option.map_some] at hmap
  exact Option.map_eq_some_iff.mp hmap

/-! ### One row that takes the page up -/

/-- A row that has taken up line 0 of a page with start S, if it was idle and of the page's bars; `ready` where its port
is READY. -/
structure RowTaken (p : Page) (start offset : Nat) (ready : Prop) (row row' : Row) : Prop where
  cursor : row'.cursor = some { page := p.id, line := 0 }
  fire : row'.fire = some (start + (offset + 32768) / 65536)
  drive : row'.drive = row.drive
  errors : row'.errors = row.errors
  loading : ready → ∃ ctx, row'.latch = .loading 0 (.assembling ctx)
  waits : ¬ ready → row'.latch = row.latch

theorem firePosition_zero (start offset pitch : Nat) :
    firePosition start offset 0 pitch = start + (offset + 32768) / 65536 := by
  simp only [firePosition, Nat.zero_mul, Nat.add_zero]

theorem takeUpStart_idle {n : Nat} {p q : Page} {r : RowId} {row : Row} {start : Nat} (hrow : s.row r = some row)
    (hidle : row.cursor = none) (hbar : entry p.bars (rowBar r) = true) (hq : findPage s.pages p.id = some q)
    (hstart : q.start = some start) :
    ∃ row', (takeUpStart n p r s).row r = some row' ∧
      RowTaken p start (rowOffset s.geometry r) ((s.port (portOf r)).state = .ready) row row' := by
  have htake : takeUpStart n p r s = beginLoad n r (placeCursor r p.id 0 s) := by
    simp only [takeUpStart, hrow, hidle, hbar, and_self, if_true]
  have hpage : pageStart s.pages p.id = start := by simp [pageStart, hq, hstart]
  have hplaced : (placeCursor r p.id 0 s).row r = some { row with
      cursor := some { page := p.id, line := 0 }
      fire := some (start + (rowOffset s.geometry r + 32768) / 65536) } := by
    rw [placeCursor, State.row_updateRow_same, hrow, hpage, Option.map_some, firePosition_zero]
  have hport : ((placeCursor r p.id 0 s).port (portOf r)).state = (s.port (portOf r)).state := rfl
  rw [htake, beginLoad_eq hplaced rfl, hport]
  by_cases hready : (s.port (portOf r)).state = .ready
  · rw [if_pos hready]
    obtain ⟨image, hload⟩ := beginLoadAt_row (n := n) (c := { page := p.id, line := 0 }) hplaced
    exact ⟨_, hload, rfl, rfl, rfl, rfl, fun _ => ⟨_, rfl⟩, fun h => absurd hready h⟩
  · rw [if_neg hready]
    exact ⟨_, hplaced, rfl, rfl, rfl, rfl, fun h => absurd h hready, fun _ => rfl⟩

theorem takeUpStart_other {n : Nat} {p : Page} {r : RowId} {row : Row} (hrow : s.row r = some row)
    (h : row.cursor.isSome = true ∨ entry p.bars (rowBar r) = false) : takeUpStart n p r s = s := by
  simp only [takeUpStart, hrow]
  refine if_neg fun ⟨hidle, hbar⟩ => ?_
  rcases h with h | h
  · rw [hidle] at h
    cases h
  · rw [hbar] at h
    cases h

theorem takeUpStarts_row_of_not_mem {n : Nat} {p : Page} {rs : List RowId} {r : RowId} (h : r ∉ rs) :
    (takeUpStarts n p rs s).row r = s.row r := by
  induction rs generalizing s with
  | nil => rfl
  | cons q rs ih =>
    obtain ⟨hq, hrs⟩ := not_or.mp (List.mem_cons.not.mp h)
    exact (ih hrs).trans (takeUpStart_row_of_ne n p (Ne.symm hq) s)

/-- A row is asked once, and finds its ports and pages as they stood, whatever the order of rows. -/
theorem takeUpStarts_row {n : Nat} {p : Page} {rs : List RowId} (hrs : rs.Nodup) {r : RowId} (hr : r ∈ rs) :
    ∃ u, TookUp s u ∧ u.row r = s.row r ∧ (takeUpStarts n p rs s).row r = (takeUpStart n p r u).row r := by
  induction rs generalizing s with
  | nil => cases hr
  | cons q rs ih =>
    obtain ⟨hq, hrs⟩ := List.nodup_cons.mp hrs
    by_cases hqr : q = r
    · subst hqr
      exact ⟨s, TookUp.refl s, rfl, takeUpStarts_row_of_not_mem hq⟩
    · obtain ⟨u, htook, hrow, hlast⟩ := ih (s := takeUpStart n p q s) hrs
        ((List.mem_cons.mp hr).resolve_left (Ne.symm hqr))
      exact ⟨u, (tookUp_takeUpStart n p q s).trans htook, hrow.trans (takeUpStart_row_of_ne n p hqr s), hlast⟩

/-! ### The start of a page -/

/-- What a page's start does: the record is started, and the rows are asked. -/
structure PageStarted (p : Page) (T S : Nat) (front back : List Page) (s t : State) : Prop where
  motion : t.motion = s.motion
  records : t.pages.map Page.ledger = (front ++ p.begun T S :: back).map Page.ledger
  ports : t.ports = s.ports
  rows : ∀ r row, s.row r = some row →
    (row.cursor = none ∧ entry p.bars (rowBar r) = true → ∃ row', t.row r = some row' ∧
      RowTaken p S (rowOffset s.geometry r) ((s.port (portOf r)).state = .ready) row row') ∧
    (row.cursor.isSome = true ∨ entry p.bars (rowBar r) = false → t.row r = some row)

theorem startPage_started {p : Page} {front back : List Page} (hids : ((front ++ p :: back).map (·.id)).Nodup)
    (hpages : s.pages = front ++ p :: back) (env : Outside) (T S : Nat) :
    PageStarted p T S front back s (startPage env p T S s) := by
  have hupdate : s.updatePage p.id (fun q => q.begun T S) = s.withPages (front ++ p.begun T S :: back) :=
    updatePage_at hids hpages _
  have hstart : startPage env p T S s =
      evaluateStarve (takeUpStarts env.fetched p (rowOrder env) (s.withPages (front ++ p.begun T S :: back))) := by
    rw [← hupdate]
    rfl
  have hsteady := steady_evaluateStarve
    (takeUpStarts env.fetched p (rowOrder env) (s.withPages (front ++ p.begun T S :: back)))
  have htook := (tookUp_takeUpStarts env.fetched p (rowOrder env) (s.withPages (front ++ p.begun T S :: back))).trans
    (tookUp_of_schedule hsteady.schedule (congrArg Seats.ports hsteady.seats))
  have hids' : ((front ++ p.begun T S :: back).map (·.id)).Nodup := by simpa [Page.begun] using hids
  rw [← hstart] at htook
  refine ⟨htook.motion, htook.records, htook.ports, fun r row hrow => ?_⟩
  obtain ⟨u, hu, hurow, hlast⟩ := takeUpStarts_row (n := env.fetched) (p := p)
    (s := s.withPages (front ++ p.begun T S :: back)) (rowOrder_nodup env) (mem_rowOrder env r)
  have hrow' : (startPage env p T S s).row r = (takeUpStart env.fetched p r u).row r := by
    rw [hstart, State.row_congr (congrArg Seats.rows hsteady.seats)]
    exact hlast
  rw [hrow']
  have hurow' : u.row r = some row := hurow.trans hrow
  refine ⟨fun ⟨hidle, hbar⟩ => ?_, fun hother => ?_⟩
  · obtain ⟨q, hq, hledger⟩ := findPage_of_ledger hu.records (findPage_at hids')
    obtain ⟨-, -, -, -, hqstart, -, -⟩ := ledger_fields hledger
    obtain ⟨row', hrow'', htaken⟩ := takeUpStart_idle (n := env.fetched) hurow' hidle hbar hq hqstart
    rw [rowOffset_congr hu.heads, State.port_congr hu.ports] at htaken
    exact ⟨row', hrow'', htaken⟩
  · rw [takeUpStart_other hurow' hother]
    exact hurow'

end

/-- Settles O35. -/
theorem triggerAccepted : Obligations.TriggerAccepted := by
  intro level env front back p s hop hedge hpos hlock hpages hfront hopen hids
  rw [hpages] at hids
  have hoffered : oldestOpen (triggered level env s).pages = some p := by
    refine List.find?_eq_some_iff_append.mpr ⟨by simpa using hopen, front, back, hpages, fun q hq => ?_⟩
    simpa using hfront q hq
  generalize hu : ((triggered level env s).updateMotion fun m =>
    { m with lastTrigger := m.hwm, lockoutEnd := m.hwm + lockoutLength p.length m.pitch m.gap }) = u
  have hexec : exec (.triggerEdge level env) s =
      .next (startPage env p s.motion.hwm (s.motion.hwm + s.motion.delay) u) := by
    rw [exec_triggerEdge_judged hop (isTriggerEdge_iff.mpr hedge),
      judgeTrigger_open (s := triggered level env s) hpos hlock, hoffered, ← hu]
    rfl
  have hupages : u.pages = front ++ p :: back := by rw [← hu]; exact hpages
  have hstarted := startPage_started hids hupages env s.motion.hwm (s.motion.hwm + s.motion.delay)
  have hevent := rowEvent_startPage env p s.motion.hwm (s.motion.hwm + s.motion.delay) u
  generalize startPage env p s.motion.hwm (s.motion.hwm + s.motion.delay) u = t at hexec hstarted hevent
  have hids' : ((front ++ p.begun s.motion.hwm (s.motion.hwm + s.motion.delay) :: back).map (·.id)).Nodup := by
    simpa [Page.begun] using hids
  obtain ⟨p', hfind, hledger⟩ := findPage_of_ledger
    (s := u.withPages (front ++ p.begun s.motion.hwm (s.motion.hwm + s.motion.delay) :: back)) hstarted.records
    (findPage_at hids')
  have hkept : ∀ {β : Type} (f : Page → β), (∀ q, f q.ledger = f q) →
      f p' = f (p.begun s.motion.hwm (s.motion.hwm + s.motion.delay)) := fun f hf => by rw [← hf p', hledger, hf]
  subst hu
  refine ⟨t, p', hexec, hfind, hkept Page.state fun _ => rfl, hkept Page.trigger fun _ => rfl,
    hkept Page.start fun _ => rfl,
    hkept (fun q => (q.length, q.bars, q.rows, q.rowsFinished, q.fired, q.blank, q.dropped, q.abandoned)) fun _ => rfl,
    ?_, hstarted.motion, fun r row hrow => ?_, { hevent.toRowsOnly with }, hstarted.ports⟩
  · rw [map_of_ledger (fun q => (q.id, q.state)) (fun _ => rfl) hstarted.records, hpages]
    have hrest : ∀ l : List Page, (∀ q ∈ l, q.id ≠ p.id) →
        l.map (fun q => (q.id, q.state)) = l.map fun q => (q.id, if q.id = p.id then .started else q.state) :=
      fun l hl => List.map_congr_left fun q hq => by rw [if_neg (hl q hq)]
    rw [List.map_append, List.map_cons, List.map_append, List.map_cons, hrest front (front_ids hids),
      hrest back (back_ids hids), if_pos rfl]
    rfl
  · obtain ⟨htaken, hother⟩ := hstarted.rows r row hrow
    refine ⟨fun hidle => ?_, hother⟩
    obtain ⟨row', hrow', h⟩ := htaken hidle
    exact ⟨row', hrow', h.cursor, h.fire, h.drive, h.errors, h.loading, h.waits⟩

end Sys2Proof.Machine
end

section
/-! PROOF. RELEASE PAGE (O38) and OPEN PAGE (O36): the parameter blocks they are sent with, the record removed and the
record added, and where R56 puts the cursor of a bar. -/

namespace Sys2Proof.Machine

/-! ### Parameter blocks -/

/-- A block that is one field reads as its value. -/
theorem fieldAt_leBytes {n v : Nat} (h : v < 256 ^ n) : fieldAt (leBytes n v) 0 n = v := by
  simpa using fieldAt_append [] [] n v h

/-- The block of OPEN PAGE (R37). -/
def openBlock (id n bars : Nat) : List Byte := leBytes 2 id ++ leBytes 2 n ++ leBytes 1 bars

section
variable {id n bars : Nat}

theorem openBlock_length : (openBlock id n bars).length = 5 := by simp [openBlock]

theorem openBlock_fields (hid : id < 65536) (hn : n ≤ 32768) (hbars : bars ≤ 15) :
    fieldAt (openBlock id n bars) 0 2 = id ∧ fieldAt (openBlock id n bars) 2 2 = n ∧
      fieldAt (openBlock id n bars) 4 1 = bars := by
  have h0 := fun rest => fieldAt_append [] rest 2 id (by omega)
  have h2 := fun rest => fieldAt_append (leBytes 2 id) rest 2 n (by omega)
  have h4 := fieldAt_append (leBytes 2 id ++ leBytes 2 n) [] 1 bars (by omega)
  simp only [List.length_append, leBytes_length, List.length_nil, List.nil_append, List.append_assoc,
    List.append_nil] at h0 h2 h4
  simp only [openBlock, List.append_assoc]
  exact ⟨h0 _, h2 _, h4⟩

end

/-- A bar set's byte names the bars whose bits it has (R37). -/
theorem readBarSet_eq (n : Nat) : readBarSet n = Vector.ofFn fun b : BarId => n.testBit b.val := by
  refine table_ext fun b => ?_
  rw [entry_ofFn, Nat.testBit_eq_decide_div_mod_eq]
  fin_cases b
  · exact congrArg (fun m => decide (m % 2 = 1)) (Nat.div_one n).symm
  · rfl
  · rfl
  · rfl

/-! ### Release -/

/-- Release marks the page's stripes and no others (R47, R65). -/
theorem markReleased_eq (id : Nat) (bs : BarStore) :
    markReleased id bs =
      { bs with ring := bs.ring.map fun st => { st with released := st.released || decide (st.page = id) } } := by
  refine congrArg (fun ring => { bs with ring := ring }) (List.map_congr_left fun st _ => ?_)
  by_cases h : st.page = id <;> simp [h]

/-- The part once the record between `front` and `back` has been removed (R47). -/
def releasedAt (front back : List Page) (id : Nat) (s : State) : State :=
  refreshCursors { s with
    pages := front ++ back
    store := { s.store with
      bars := s.store.bars.map fun bs => { bs with
        ring := bs.ring.map fun st => { st with released := st.released || decide (st.page = id) } } } }

section
variable {front back : List Page} {p : Page} (hids : ((front ++ p :: back).map (·.id)).Nodup)
include hids

/-- The records without the one of an id. -/
theorem filter_ne_at : (front ++ p :: back).filter (fun q => q.id ≠ p.id) = front ++ back := by
  have hkeep : ∀ l : List Page, (∀ q ∈ l, q.id ≠ p.id) → l.filter (fun q => q.id ≠ p.id) = l := fun l hl =>
    List.filter_eq_self.mpr fun q hq => by simpa using hl q hq
  rw [List.filter_append, List.filter_cons_of_neg (by simp), hkeep front (front_ids hids), hkeep back (back_ids hids)]

theorem removePage_at {s : State} (hpages : s.pages = front ++ p :: back) :
    removePage p.id s = releasedAt front back p.id s := by
  rw [removePage, releasedAt, hpages, filter_ne_at hids, funext (markReleased_eq p.id)]

variable {s : State} (hop : s.control.op = .online) (hpages : s.pages = front ++ p :: back) (hid : p.id < 65536)
include hop hpages hid

theorem judgeReleasePage_wrongState (hstate : p.state ≠ .done) :
    judgeReleasePage (leBytes 2 p.id) s = (s, .done .wrongState []) := by
  simp [judgeReleasePage, hop, fieldAt_leBytes (n := 2) hid, hpages, findPage_at hids, hstate, reply]

theorem judgeReleasePage_done (hstate : p.state = .done) :
    judgeReleasePage (leBytes 2 p.id) s =
      (releasedAt front back p.id s,
        .done .ok (p.bytes front.length ++ leBytes 1 (front.length + back.length))) := by
  have hheld : (releasedAt front back p.id s).pages.length = front.length + back.length := List.length_append
  simp [judgeReleasePage, hop, fieldAt_leBytes (n := 2) hid, findPage_at hids, hstate, removePage_at hids hpages,
    hpages, placeOf_append (front_ids hids), hheld, reply]

end

/-- Settles O38. -/
theorem releasePageRemoves : Obligations.ReleasePageRemoves := by
  intro front back p s htakes hop hids hpages hid
  rw [hpages] at hids
  have htaken := takeRequest_taken htakes (params := leBytes 2 p.id) (by simp) 0x52 (judgeReleasePage (leBytes 2 p.id))
  refine ⟨fun hstate => congrArg Host.Outcome.next (htaken.trans ?_), fun hstate =>
    congrArg Host.Outcome.next (htaken.trans ?_)⟩
  · rw [judgeReleasePage_wrongState (s := admitted 0x52 s) hids hop hpages hid hstate]
    exact settled_reply htakes 0x52 .wrongState []
  · rw [judgeReleasePage_done (s := admitted 0x52 s) hids hop hpages hid hstate]
    exact settled_done (t := releasedAt front back p.id s) htakes rfl 0x52 .ok _

/-! ### Where R56 puts a cursor -/

section
variable {ps : List Page} {bs : BarStore} {b : BarId}

theorem lacksStripes_iff {p : Page} : lacksStripes b p = true ↔
    p.state ≠ .done ∧ entry p.bars b = true ∧ entry p.complete b < entry p.expected b := by
  simp [lacksStripes, and_assoc]

/-- With no page that lacks stripes of the bar the cursor is absent. -/
theorem cursorOf_eq_none (h : ∀ p ∈ ps, ¬ lacksStripes b p = true) : cursorOf ps bs b = none := by
  rw [cursorOf, List.find?_eq_none.mpr h]

/-- The rows received of the FILLING record that a ring holds of a stripe, or 0 (R56). -/
def fillingRows (ring : List Stripe) (page index : Nat) : Nat :=
  match ring.find? fun st => decide (st.state = .filling) && st.is page index with
  | some st => st.received
  | none => 0

/-- The cursor stands on the oldest page that lacks stripes of the bar. -/
theorem cursorOf_at {front back : List Page} {p : Page} (hp : lacksStripes b p = true)
    (hfront : ∀ q ∈ front, ¬ lacksStripes b q = true) :
    cursorOf (front ++ p :: back) bs b =
      some { page := p.id, index := entry p.complete b, row := fillingRows bs.ring p.id (entry p.complete b) } := by
  have hfind : (front ++ p :: back).find? (lacksStripes b) = some p :=
    List.find?_eq_some_iff_append.mpr ⟨hp, front, back, rfl, fun q hq => by simpa using hfront q hq⟩
  rw [cursorOf, hfind]
  rfl

theorem fillingRows_at {older newer : List Stripe} {x : Stripe} (hstate : x.state = .filling)
    (hreleased : x.released = false) (holder : ∀ y ∈ older, y.state = .complete) :
    fillingRows (older ++ x :: newer) x.page x.index = x.received := by
  have hfind : (older ++ x :: newer).find? (fun st => decide (st.state = .filling) && st.is x.page x.index) = some x :=
    List.find?_eq_some_iff_append.mpr
      ⟨by simp [Stripe.is, hstate, hreleased], older, newer, rfl, fun y hy => by simp [holder y hy]⟩
  rw [fillingRows, hfind]

theorem fillingRows_of_none {ring : List Stripe} {page index : Nat}
    (h : ∀ x ∈ ring, x.state = .filling → x.released = false → ¬ (x.page = page ∧ x.index = index)) :
    fillingRows ring page index = 0 := by
  have hfind : ring.find? (fun st => decide (st.state = .filling) && st.is page index) = none :=
    List.find?_eq_none.mpr fun x hx hmatch => by
      simp only [Stripe.is, Bool.and_eq_true, decide_eq_true_eq, Bool.not_eq_true'] at hmatch
      obtain ⟨hstate, hnamed, hreleased⟩ := hmatch
      exact h x hx hstate hreleased hnamed
  rw [fillingRows, hfind]

end

/-! ### Open -/

/-- A fresh record of a page of n lines on the bars named (R38). -/
def freshPage (s : State) (id n : Nat) (named : BarId → Bool) : Page where
  id := id
  length := n
  bars := Vector.ofFn named
  rows := (allRows.filter fun r => (s.row r).isSome && named (rowBar r)).length
  rowsFinished := 0
  state := .opened
  trigger := none
  start := none
  expected := Vector.ofFn fun b => if named b then (n + 63) / 64 else 0
  complete := Vector.ofFn fun _ => 0
  flags := { underrun := false, dropped := false, memory := false, aborted := false }
  abortMark := .notAborted
  fired := 0
  blank := 0
  dropped := { overspeed := 0, lateData := 0, transfer := 0, headFault := 0 }
  abandoned := 0

theorem newPage_eq (s : State) (id n : Nat) (named : BarId → Bool) :
    newPage s id n (Vector.ofFn named) = freshPage s id n named := by
  have hexpected : (Vector.ofFn named).map (fun b => if b then stripesExpected n else 0) =
      Vector.ofFn fun b => if named b then (n + 63) / 64 else 0 :=
    table_ext fun b => by rw [entry_map, entry_ofFn, entry_ofFn, stripesExpected]
  have hcomplete : Vector.replicate 4 0 = Vector.ofFn fun _ : BarId => 0 :=
    table_ext fun b => by rw [entry_replicate, entry_ofFn]
  simp only [newPage, freshPage, hexpected, hcomplete, rowsInBars, entry_ofFn]

/-- The figures that OPEN PAGE is answered with (R38, R154), the record standing behind those of `ps`. -/
def openedFigures (ps : List Page) (id n : Nat) (named : BarId → Bool) : List Byte :=
  leBytes 2 id ++ leBytes 1 (ps.length + 1) ++ leBytes 1 ((ps.filter fun q => q.state = .opened).length + 1) ++
    (allBars.map fun b => leBytes 2 (if named b then (n + 63) / 64 else 0)).flatten

theorem openFields_freshPage (s : State) (id n : Nat) (named : BarId → Bool) :
    openFields (s.pages ++ [freshPage s id n named]) (freshPage s id n named) = openedFigures s.pages id n named := by
  simp [openFields, openedFigures, freshPage, List.filter_append]

section
variable {id n bars : Nat} {s : State} (hid : id < 65536) (hn : 1 ≤ n ∧ n ≤ 32768) (hbars : 1 ≤ bars ∧ bars ≤ 15)
  (hheads : ∀ b : BarId, bars.testBit b.val = true → hasHeads s.geometry b = true) (hfree : ∀ p ∈ s.pages, p.id ≠ id)
include hid hn hbars hheads hfree

theorem openFailure_none : openFailure (openBlock id n bars) s = none := by
  obtain ⟨h0, h2, h4⟩ := openBlock_fields hid hn.2 hbars.2
  have hfind : (findPage s.pages id).isSome = false := by simpa [findPage] using hfree
  simp only [openFailure, check_eq_none, openBlock_length, h0, h2, h4, hfind, readBarSet_eq, entry_ofFn,
    List.any_eq_true, not_exists, Bool.and_eq_true, Bool.not_eq_true', not_and, and_true]
  exact ⟨by omega, by omega, by omega, fun b _ hb => by simp [hheads b hb], by simp⟩

variable (hop : s.control.op = .online)
include hop

theorem judgeOpenPage_full (hfull : 8 ≤ s.pages.length) :
    judgeOpenPage (openBlock id n bars) s = (s, .done .queueFull []) := by
  have hpass := openFailure_none hid hn hbars hheads hfree
  simp [judgeOpenPage, hop, hpass, Config.pagePlaces, hfull, reply]

theorem judgeOpenPage_accepts (hroom : s.pages.length < 8) :
    judgeOpenPage (openBlock id n bars) s =
      (refreshCursors { s with pages := s.pages ++ [freshPage s id n fun b => bars.testBit b.val] },
        .done .ok (openedFigures s.pages id n fun b => bars.testBit b.val)) := by
  have hpass := openFailure_none hid hn hbars hheads hfree
  obtain ⟨h0, h2, h4⟩ := openBlock_fields hid hn.2 hbars.2
  have hplaces : ¬ Config.pagePlaces ≤ s.pages.length := by simpa [Config.pagePlaces] using hroom
  simp only [judgeOpenPage, hop, hpass, hplaces, h0, h2, h4, readBarSet_eq, newPage_eq, openFields_freshPage,
    ne_eq, not_true_eq_false, if_false, reply]

end

/-- Settles O36. -/
theorem openPageAccepted : Obligations.OpenPageAccepted := by
  refine ⟨fun pages bs b => ⟨?_, fun hnone => ?_⟩, fun s b => ⟨refreshCursors_bar b s, rfl⟩, ?_⟩
  · rintro front p back rfl hp hfront
    refine ⟨fillingRows bs.ring p.id (entry p.complete b), cursorOf_at (lacksStripes_iff.mpr hp)
      fun q hq h => hfront q hq (lacksStripes_iff.mp h), ?_, fillingRows_of_none⟩
    rintro x older newer hring hstate hreleased hpage hindex holder
    rw [hring, ← hpage, ← hindex]
    exact fillingRows_at hstate hreleased holder
  · exact cursorOf_eq_none fun p hp h => hnone p hp (lacksStripes_iff.mp h)
  · intro id n bars s htakes hid hn hn' hbars hbars' ps named
    have hlen : ps.length + 1 ≤ 300 := (congrArg Nat.succ openBlock_length).trans_le (by decide)
    have htaken := takeRequest_taken htakes hlen 0x50 (judgeOpenPage ps)
    refine ⟨fun hop => congrArg Host.Outcome.next (htaken.trans ?_), fun hop hheads hfree =>
      ⟨fun hfull => congrArg Host.Outcome.next (htaken.trans ?_), fun hroom =>
        congrArg Host.Outcome.next (htaken.trans ?_)⟩⟩
    · have hrefused : judgeOpenPage ps (admitted 0x50 s) = reply .wrongState [] (admitted 0x50 s) := if_pos hop
      rw [hrefused]
      exact settled_reply htakes 0x50 .wrongState []
    · have hjudged := judgeOpenPage_full (s := admitted 0x50 s) hid ⟨hn, hn'⟩ ⟨hbars, hbars'⟩ hheads hfree hop hfull
      exact (congrArg settled hjudged).trans (settled_reply htakes 0x50 .queueFull [])
    · have hjudged := judgeOpenPage_accepts (s := admitted 0x50 s) hid ⟨hn, hn'⟩ ⟨hbars, hbars'⟩ hheads hfree hop hroom
      exact (congrArg settled hjudged).trans
        (settled_done (t := refreshCursors { s with pages := s.pages ++ [freshPage s id n named] }) htakes rfl 0x50
          .ok _)

end Sys2Proof.Machine
end

section
/-! PROOF. ABORT PAGE (O37): the rows leave the page one by one (R94), the record becomes DONE (R44, R45), and the
Stripe Store retires its stripes (R64, R65). -/

namespace Sys2Proof.Machine

/-! ### The records as rows leave a page -/

/-- As rows leave the page with an id its record stands, and so do the others but for what loads mark in them. -/
structure RecordsLeft (id : Nat) (s t : State) : Prop where
  records : t.pages.map Page.ledger = s.pages.map Page.ledger
  record : findPage t.pages id = findPage s.pages id

theorem RecordsLeft.refl (id : Nat) (s : State) : RecordsLeft id s s := ⟨rfl, rfl⟩

theorem RecordsLeft.trans {id : Nat} {s t u : State} (h : RecordsLeft id s t) (k : RecordsLeft id t u) :
    RecordsLeft id s u := ⟨k.records.trans h.records, k.record.trans h.record⟩

theorem nextStarted_map_ledger (ps : List Page) (id : Nat) (b : BarId) :
    nextStarted (ps.map Page.ledger) id b = (nextStarted ps id b).map Page.ledger := by
  rw [nextStarted, nextStarted, pagesBehind, pagesBehind, List.dropWhile_map, ← List.map_drop, List.find?_map]
  rfl

theorem takenUpCursor_map_ledger (next : Option Page) : takenUpCursor (next.map Page.ledger) = takenUpCursor next := by
  rw [takenUpCursor, Option.map_map]
  rfl

section
variable {front back : List Page} {p : Page} (hids : ((front ++ p :: back).map (·.id)).Nodup) {s : State}
  (hpages : s.pages.map Page.ledger = (front ++ p :: back).map Page.ledger)

include hids hpages in
/-- The page a row goes on to is found behind the record, whatever loads have marked in the records. -/
theorem takenUpCursor_at (b : BarId) :
    takenUpCursor (nextStarted s.pages p.id b) =
      takenUpCursor (back.find? fun q => q.state = .started && entry q.bars b) := by
  rw [← takenUpCursor_map_ledger, ← nextStarted_map_ledger, hpages, nextStarted_map_ledger, takenUpCursor_map_ledger,
    nextStarted_at hids]

include hids in
theorem takenUpCursor_page_ne {b : BarId} {c : Cursor}
    (hc : takenUpCursor (back.find? fun q => q.state = .started && entry q.bars b) = some c) : c.page ≠ p.id := by
  obtain ⟨q, hq, rfl⟩ := Option.map_eq_some_iff.mp hc
  exact back_ids hids q (List.mem_of_find?_eq_some hq)

end

/-! ### One row that leaves -/

section
variable {s : State} {r : RowId} {row : Row}

theorem takeUp_pages (r : RowId) (next : Option Page) (s : State) : (takeUp r next s).pages = s.pages := by
  cases next <;> rfl

theorem takeUp_row (hrow : s.row r = some row) (next : Option Page) :
    ∃ fire, (takeUp r next s).row r = some { row with cursor := takenUpCursor next, fire := fire } := by
  cases next with
  | none => exact ⟨none, by rw [takeUp, makeIdle, State.row_updateRow_same, hrow]; rfl⟩
  | some q => exact ⟨_, by rw [takeUp, placeCursor, State.row_updateRow_same, hrow]; rfl⟩

theorem clearLatch_pages (r : RowId) (s : State) : (clearLatch r s).pages = s.pages := by
  unfold clearLatch
  split <;> rfl

theorem beginLoad_idle {n : Nat} (hrow : s.row r = some row) (hidle : row.cursor = none) : beginLoad n r s = s := by
  simp [beginLoad, hrow, hidle]

/-- The beginning of a load changes of its row the latch alone. -/
theorem beginLoad_row {n : Nat} (hrow : s.row r = some row) :
    ∃ latch, (beginLoad n r s).row r = some { row with latch := latch } := by
  rcases Option.eq_none_or_eq_some row.cursor with hc | ⟨c, hc⟩
  · exact ⟨row.latch, by rw [beginLoad_idle hrow hc, hrow]⟩
  · rw [beginLoad_eq hrow hc]
    split
    · obtain ⟨_, hload⟩ := beginLoadAt_row (n := n) (c := c) hrow
      exact ⟨_, hload⟩
    · exact ⟨row.latch, hrow⟩

/-- The beginning of a load marks no page but that of its row's cursor. -/
theorem beginLoad_record {n : Nat} (hrow : s.row r = some row) {id : Nat}
    (hid : ∀ c, row.cursor = some c → c.page ≠ id) : findPage (beginLoad n r s).pages id = findPage s.pages id := by
  cases hc : row.cursor with
  | none => rw [beginLoad_idle hrow hc]
  | some c => exact (loadStep_beginLoad hrow hc).others id (hid c hc).symm

theorem leavePage_other {n id : Nat} (hrow : s.row r = some row) (h : ∀ c, row.cursor = some c → c.page ≠ id) :
    leavePage n id r s = s := by
  unfold leavePage
  rw [hrow, Option.bind_some]
  split
  · rfl
  · rename_i c hc
    exact if_neg (h c hc)

/-- A row as it stands once it has left a page: on line 0 of the next page or idle, its drive untouched (R94). -/
structure RowLeft (next : Option Page) (row row' : Row) : Prop where
  cursor : row'.cursor = takenUpCursor next
  drive : row'.drive = row.drive
  errors : row'.errors = row.errors

/-- A row on the page leaves it for the next page: its latch is emptied, it takes that page up, and loads. -/
theorem leavePage_row {n id : Nat} {c : Cursor} (hrow : s.row r = some row) (hc : row.cursor = some c)
    (hpage : c.page = id) :
    (∃ row', (leavePage n id r s).row r = some row' ∧ RowLeft (nextStarted s.pages id (rowBar r)) row row') ∧
      (leavePage n id r s).pages.map Page.ledger = s.pages.map Page.ledger ∧
      ((∀ c, takenUpCursor (nextStarted s.pages id (rowBar r)) = some c → c.page ≠ id) →
        findPage (leavePage n id r s).pages id = findPage s.pages id) := by
  have hleave : leavePage n id r s = beginLoad n r (takeUp r (nextStarted s.pages id (rowBar r)) (clearLatch r s)) := by
    simp [leavePage, hrow, hc, hpage]
  have hclear : (clearLatch r s).row r = some { row with latch := .empty } := by rw [clearLatch_row, hrow]; rfl
  generalize hnext : nextStarted s.pages id (rowBar r) = next at hleave ⊢
  obtain ⟨fire, htaken⟩ := takeUp_row hclear next
  have hpages : (takeUp r next (clearLatch r s)).pages = s.pages := (takeUp_pages ..).trans (clearLatch_pages r s)
  obtain ⟨latch, hload⟩ := beginLoad_row (n := n) htaken
  rw [hleave]
  refine ⟨⟨_, hload, rfl, rfl, rfl⟩, ?_, fun hne => ?_⟩
  · rw [← hpages]
    exact congrArg Schedule.pages (schedule_beginLoad n r _)
  · rw [beginLoad_record htaken hne, hpages]

end

/-! ### All rows that leave -/

section
variable {front back : List Page} {p : Page} (hids : ((front ++ p :: back).map (·.id)).Nodup) {s : State}
  (hpages : s.pages.map Page.ledger = (front ++ p :: back).map Page.ledger)
include hids hpages

theorem recordsLeft_leavePage (n : Nat) (r : RowId) : RecordsLeft p.id s (leavePage n p.id r s) := by
  by_cases hon : ∃ row c, s.row r = some row ∧ row.cursor = some c ∧ c.page = p.id
  · obtain ⟨row, c, hrow, hc, hpage⟩ := hon
    obtain ⟨-, hrecords, hrecord⟩ := leavePage_row (n := n) hrow hc hpage
    refine ⟨hrecords, hrecord fun c' hc' => ?_⟩
    rw [takenUpCursor_at hids hpages] at hc'
    exact takenUpCursor_page_ne hids hc'
  · have hsame : leavePage n p.id r s = s := by
      cases hrow : s.row r with
      | none => simp [leavePage, hrow]
      | some row => exact leavePage_other hrow fun c hc hpage => hon ⟨row, c, hrow, hc, hpage⟩
    rw [hsame]
    exact RecordsLeft.refl p.id s

theorem recordsLeft_leavePages (n : Nat) (rs : List RowId) : RecordsLeft p.id s (leavePages n p.id rs s) := by
  induction rs generalizing s with
  | nil => exact RecordsLeft.refl p.id s
  | cons r rs ih =>
    have h := recordsLeft_leavePage hids hpages n r
    exact h.trans (ih (h.records.trans hpages))

omit hids hpages in
theorem leavePages_row_of_not_mem {n id : Nat} {rs : List RowId} {r : RowId} (h : r ∉ rs) (s : State) :
    (leavePages n id rs s).row r = s.row r := by
  induction rs generalizing s with
  | nil => rfl
  | cons q rs ih =>
    obtain ⟨hq, hrs⟩ := not_or.mp (List.mem_cons.not.mp h)
    exact (ih hrs _).trans (leavePage_row_of_ne n id (Ne.symm hq) s)

/-- A row is asked to leave once, and finds the records as they stood but for loads' marks, whatever the order of
rows. -/
theorem leavePages_row {n : Nat} {rs : List RowId} (hrs : rs.Nodup) {r : RowId} (hr : r ∈ rs) :
    ∃ u, u.pages.map Page.ledger = (front ++ p :: back).map Page.ledger ∧ u.row r = s.row r ∧
      (leavePages n p.id rs s).row r = (leavePage n p.id r u).row r := by
  induction rs generalizing s with
  | nil => cases hr
  | cons q rs ih =>
    obtain ⟨hq, hrs⟩ := List.nodup_cons.mp hrs
    by_cases hqr : q = r
    · subst hqr
      exact ⟨s, hpages, rfl, leavePages_row_of_not_mem hq _⟩
    · obtain ⟨u, hu, hrow, hlast⟩ := ih ((recordsLeft_leavePage hids hpages n q).records.trans hpages) hrs
        ((List.mem_cons.mp hr).resolve_left (Ne.symm hqr))
      exact ⟨u, hu, hrow.trans (leavePage_row_of_ne n p.id hqr s), hlast⟩

end

/-! ### The stripes of a page that has ended (R64, R65) -/

/-- Every stripe of a ring that is due carries the retired mark. -/
def DueRetired (due : Stripe → Bool) (ring : List Stripe) : Prop := ∀ st ∈ ring, due st = true → st.retired = true

theorem withdrawTail_subset (ring : List Stripe) : (withdrawTail ring).1 ⊆ ring := by
  unfold withdrawTail
  split
  · split
    · exact List.dropLast_subset ring
    · exact List.Subset.refl ring
  · exact List.Subset.refl ring

theorem dueRetired_judgedBar (b : BarId) (s : State) : DueRetired (retirementDue s b) (judgedBar s b).ring := by
  intro st hst hdue
  obtain ⟨st, -, rfl⟩ := List.mem_map.mp (withdrawTail_subset _ ((List.dropWhile_sublist _).subset hst))
  have hdue' : retirementDue s b st = true := hdue
  simp [Stripe.judged, hdue']

/-- Judging a bar marks what is due in it, and takes no mark from another bar. -/
theorem dueRetired_judgeRetirement (b x : BarId) {s : State}
    (h : x = b ∨ DueRetired (retirementDue s x) (s.bar x).ring) :
    DueRetired (retirementDue (judgeRetirement b s) x) ((judgeRetirement b s).bar x).ring := by
  rw [(judgeStep_judgeRetirement b s).due, judgeRetirement_bar]
  split
  · subst_vars
    exact dueRetired_judgedBar _ s
  · rename_i hne
    exact h.resolve_left (Ne.symm hne)

theorem dueRetired_judgeRetirements {bs : List BarId} {x : BarId} {s : State}
    (h : x ∈ bs ∨ DueRetired (retirementDue s x) (s.bar x).ring) :
    DueRetired (retirementDue (judgeRetirements bs s) x) ((judgeRetirements bs s).bar x).ring := by
  induction bs generalizing s with
  | nil => exact h.resolve_left (by simp)
  | cons b bs ih =>
    refine ih ?_
    by_cases hx : x ∈ bs
    · exact .inl hx
    · exact .inr (dueRetired_judgeRetirement b x (h.imp_left fun hmem => (List.mem_cons.mp hmem).resolve_right hx))

/-- The end of a page leaves no stripe of its bars unmarked that is due. -/
theorem dueRetired_storePageEnd {bars : Vector Bool 4} {x : BarId} (hx : entry bars x = true) (s : State) :
    DueRetired (retirementDue s x) ((storePageEnd bars s).bar x).ring := by
  have hmem : x ∈ allBars.filter fun b => entry bars b := List.mem_filter.mpr ⟨mem_allBars x, hx⟩
  have hjudged := dueRetired_judgeRetirements (s := s) (.inl hmem)
  have hsteps := judgeSteps_judgeRetirements (allBars_nodup.filter fun b => entry bars b) s
  rw [retirementDue_core (s := s) (by rw [hsteps.pages]) (fun r => by rw [State.row_congr hsteps.rows]) x] at hjudged
  rw [storePageEnd, State.bar_congr (evaluateStarve_bars _), refreshCursors_bar]
  exact hjudged

/-- Every stripe of a DONE page is due (R64). -/
theorem retirementDue_of_done {s : State} {st : Stripe} {p : Page} (hp : findPage s.pages st.page = some p)
    (hdone : p.state = .done) (b : BarId) : retirementDue s b st = true := by
  simp only [retirementDue, hp, hdone]

/-! ### The page aborted -/

theorem judgeChangeovers_pages (bs : List BarId) (s : State) : (judgeChangeovers bs s).pages = s.pages := by
  induction bs generalizing s with
  | nil => rfl
  | cons b bs ih =>
    refine (ih _).trans ?_
    unfold judgeChangeover
    split
    · rfl
    · split <;> rfl

theorem judgeChangeovers_rows (bs : List BarId) (s : State) : (judgeChangeovers bs s).rows = s.rows :=
  congrArg Seats.rows (steady_judgeChangeovers bs s).seats

theorem reportDone_pages (id : Nat) (s : State) : (reportDone id s).pages = s.pages := by
  unfold reportDone
  split <;> rfl

/-- The judgement of changeovers and the PAGE DONE report touch no page, row or bar. -/
theorem reportDone_judgeChangeovers_frame (id : Nat) (bs : List BarId) (s : State) :
    (reportDone id (judgeChangeovers bs s)).pages = s.pages ∧ (reportDone id (judgeChangeovers bs s)).rows = s.rows ∧
      (reportDone id (judgeChangeovers bs s)).store.bars = s.store.bars :=
  ⟨(reportDone_pages id _).trans (judgeChangeovers_pages bs s),
    (reportDone_rows id _).trans (judgeChangeovers_rows bs s), by rw [reportDone_store, judgeChangeovers_store]⟩

/-- A change of a record that keeps its id, seen at that id. -/
theorem findPage_changePage {id : Nat} {f : Page → Page} (hf : ∀ p, (f p).id = p.id) (ps : List Page) :
    findPage (changePage id f ps) id = (findPage ps id).map f := by
  have hfun : (fun q : Page => decide (q.id = id)) ∘ (fun q => if q.id = id then f q else q) =
      fun q => decide (q.id = id) := by
    funext q
    by_cases hq : q.id = id <;> simp [hq, hf]
  rw [findPage, changePage, List.find?_map, hfun, findPage]
  cases hfind : ps.find? fun q => decide (q.id = id) with
  | none => rfl
  | some q =>
    have hq : q.id = id := by simpa using List.find?_some hfind
    rw [Option.map_some, Option.map_some, if_pos hq]

/-- What the abort of a page does to its record, the page queue, the rows and the bars. -/
structure PageAborted (back : List Page) (p : Page) (s t : State) : Prop where
  record : findPage t.pages p.id = some p.abort
  states : (t.pages.map fun q => (q.id, q.state)) =
    s.pages.map fun q => (q.id, if q.id = p.id then .done else q.state)
  other_rows : ∀ r row, s.row r = some row → (∀ c, row.cursor = some c → c.page ≠ p.id) → t.row r = some row
  rows_left : ∀ r row c, s.row r = some row → row.cursor = some c → c.page = p.id → ∃ row', t.row r = some row' ∧
    RowLeft (back.find? fun q => q.state = .started && entry q.bars (rowBar r)) row row'
  retired : ∀ b : BarId, entry p.bars b = true → ∀ st ∈ (t.bar b).ring, st.page = p.id → st.retired = true
  cursors : ∀ b : BarId, (t.bar b).cursor = cursorOf t.pages (t.bar b) b

section
variable {front back : List Page} {p : Page} {s : State} (hids : ((front ++ p :: back).map (·.id)).Nodup)
  (hpages : s.pages = front ++ p :: back)
include hids hpages

/-- The rows as they stand once all have been asked to leave (R94). -/
theorem leavePages_rows (n : Nat) {rs : List RowId} (hrs : rs.Nodup) {r : RowId} (hr : r ∈ rs) {row : Row}
    (hrow : s.row r = some row) :
    ((∀ c, row.cursor = some c → c.page ≠ p.id) → (leavePages n p.id rs s).row r = some row) ∧
      ∀ c, row.cursor = some c → c.page = p.id → ∃ row', (leavePages n p.id rs s).row r = some row' ∧
        RowLeft (back.find? fun q => q.state = .started && entry q.bars (rowBar r)) row row' := by
  obtain ⟨u, hu, hurow, hlast⟩ := leavePages_row (n := n) hids (congrArg (List.map Page.ledger) hpages) hrs hr
  rw [hrow] at hurow
  rw [hlast]
  refine ⟨fun hother => by rw [leavePage_other hurow hother, hurow], fun c hc hpage => ?_⟩
  obtain ⟨⟨row', hrow', hleft⟩, -⟩ := leavePage_row (n := n) hurow hc hpage
  exact ⟨row', hrow', { hleft with cursor := hleft.cursor.trans (takenUpCursor_at hids hu _) }⟩

theorem pageAborted_abortPage (env : Outside) : PageAborted back p s (abortPage env p s) := by
  have hleft := recordsLeft_leavePages hids (congrArg (List.map Page.ledger) hpages) env.fetched (rowOrder env)
  have hrows := fun r row =>
    leavePages_rows hids hpages env.fetched (rowOrder_nodup env) (mem_rowOrder env r) (row := row)
  unfold abortPage
  dsimp only
  generalize leavePages env.fetched p.id (rowOrder env) s = u at hleft hrows ⊢
  have hend := pageEndStep_storePageEnd p.bars (u.updatePage p.id Page.abort)
  have hdue := fun b (hb : entry p.bars b = true) => dueRetired_storePageEnd hb (u.updatePage p.id Page.abort)
  have hrecord : findPage (u.updatePage p.id Page.abort).pages p.id = some p.abort := by
    rw [State.updatePage_pages, findPage_changePage (f := Page.abort) fun _ => rfl, hleft.record, hpages,
      findPage_at hids, Option.map_some]
  generalize storePageEnd p.bars (u.updatePage p.id Page.abort) = v at hend hdue ⊢
  obtain ⟨htpages, htrows, htbars⟩ := reportDone_judgeChangeovers_frame p.id allBars v
  generalize reportDone p.id (judgeChangeovers allBars v) = t at htpages htrows htbars ⊢
  have hpages' : t.pages = (u.updatePage p.id Page.abort).pages := htpages.trans hend.pages
  have hrow' : ∀ r, t.row r = u.row r := State.row_congr (htrows.trans hend.rows)
  exact
    { record := by rwa [hpages']
      states := by
        rw [hpages', ← map_of_ledger (fun q => (q.id, if q.id = p.id then .done else q.state)) (fun _ => rfl)
          hleft.records, State.updatePage_pages, changePage, List.map_map]
        refine List.map_congr_left fun q _ => ?_
        by_cases hq : q.id = p.id <;> simp [hq, Page.abort]
      other_rows := fun r row hrow hother => (hrow' r).trans ((hrows r row hrow).1 hother)
      rows_left := fun r row c hrow hc hpage => by
        rw [hrow']
        exact (hrows r row hrow).2 c hc hpage
      retired := fun b hb st hst hpage => by
        rw [State.bar_congr htbars] at hst
        exact hdue b hb st hst (retirementDue_of_done (p := p.abort) (by rwa [hpage]) rfl b)
      cursors := fun b => by rw [State.bar_congr htbars, hend.cursor, htpages] }

end

/-! ### The request -/

theorem abortFields_of_done {p : Page} (hstate : p.state = .done) :
    abortFields p = [2, p.abortMark.code] ++ leBytes 4 p.abandoned := by
  rw [abortFields, hstate, PageState.code]

section
variable {front back : List Page} {p : Page} {s : State} (hids : ((front ++ p :: back).map (·.id)).Nodup)
  (hpages : s.pages = front ++ p :: back) (hop : s.control.op = .online) (hid : p.id < 65536)
include hids hpages hop hid

theorem judgeAbortPage_done (env : Outside) (hstate : p.state = .done) :
    judgeAbortPage (leBytes 2 p.id) env s =
      (s, .done .ok ([2, p.abortMark.code] ++ leBytes 4 p.abandoned)) := by
  rw [← abortFields_of_done hstate]
  simp [judgeAbortPage, hop, fieldAt_leBytes (n := 2) hid, hpages, findPage_at hids, hstate, reply]

theorem judgeAbortPage_ends (env : Outside) (hstate : p.state ≠ .done) :
    judgeAbortPage (leBytes 2 p.id) env s =
      (abortPage env p s, .done .ok ([2, p.abort.abortMark.code] ++ leBytes 4 p.abort.abandoned)) := by
  rw [← abortFields_of_done (p := p.abort) rfl]
  simp [judgeAbortPage, hop, fieldAt_leBytes (n := 2) hid, hpages, findPage_at hids, hstate, reply]

end

/-- Settles O37. -/
theorem abortPageEnds : Obligations.AbortPageEnds := by
  intro env front back p s htakes hop hids hpages hid
  rw [hpages] at hids
  have htakes' : Takes .request (upset env.upsets s) := htakes
  have htaken := takeRequest_taken htakes' (params := leBytes 2 p.id) (by simp) 0x51
    (judgeAbortPage (leBytes 2 p.id) env)
  refine ⟨fun hstate => congrArg Host.Outcome.next (htaken.trans ?_), fun hstate => ?_⟩
  · rw [judgeAbortPage_done (s := admitted 0x51 (upset env.upsets s)) hids hpages hop hid env hstate]
    exact settled_reply htakes' 0x51 .ok _
  · have hjudged := judgeAbortPage_ends (s := admitted 0x51 (upset env.upsets s)) hids hpages hop hid env hstate
    have haborted := pageAborted_abortPage (s := admitted 0x51 (upset env.upsets s)) hids hpages env
    have hevent := rowEvent_abortPage env p (admitted 0x51 (upset env.upsets s))
    generalize abortPage env p (admitted 0x51 (upset env.upsets s)) = u at hjudged haborted hevent
    have hu : { { u with link := s.link } with link := (admitted 0x51 (upset env.upsets s)).link } = u := by
      rw [← hevent.link]
    have hdone := settled_done (s := upset env.upsets s) (t := { u with link := s.link }) htakes' rfl 0x51 .ok
      ([2, p.abort.abortMark.code] ++ leBytes 4 p.abort.abandoned)
    rw [hu] at hdone
    refine ⟨_, congrArg Host.Outcome.next (htaken.trans ((congrArg settled hjudged).trans hdone)), ?_, haborted.record,
      haborted.states, fun r row hrow => ⟨haborted.other_rows r row hrow, fun c hc hpage => ?_⟩, haborted.retired,
      haborted.cursors, hevent.control, hevent.motion, hevent.drives, hevent.pending, hevent.heads, hevent.masks,
      hevent.defects, hevent.memory⟩
    · rfl
    · obtain ⟨row', hrow', hleft⟩ := haborted.rows_left r row c hrow hc hpage
      exact ⟨row', hrow', hleft.drive, hleft.errors, hleft.cursor⟩

end Sys2Proof.Machine
end

section
/-! PROOF. What the Stripe Store holds and depends on (its shelf), and the few ways in which an event changes it: the
starve condition evaluated, a stripe taken, a bar judged for retirement, a page's start and its end. -/

namespace Sys2Proof.Machine

/-! ### The shelf -/

/-- What the rings, the stripe cursors and the ahead counts depend on in a page record. -/
structure PageShelf where
  id : Nat
  length : Nat
  bars : Vector Bool 4
  done : Bool
  expected : Vector Nat 4
  complete : Vector Nat 4

/-- A page record as the Stripe Store sees it. -/
def Page.shelf (p : Page) : PageShelf where
  id := p.id
  length := p.length
  bars := p.bars
  done := decide (p.state = .done)
  expected := p.expected
  complete := p.complete

/-- What the Stripe Store holds, but for its error records, and what it depends on. -/
structure Shelf where
  op : OpState
  bars : Vector BarStore 4
  starve : Bool
  slowdown : Bool
  memory : Memory
  damage : List (Nat × Damage)
  pages : List PageShelf

/-- The shelf of a state. -/
def State.shelf (s : State) : Shelf where
  op := s.control.op
  bars := s.store.bars
  starve := s.store.starve
  slowdown := s.store.slowdown
  memory := s.store.memory
  damage := s.store.damage
  pages := s.pages.map Page.shelf

section
variable {s t : State} (h : t.shelf = s.shelf)
include h

theorem op_of_shelf : t.control.op = s.control.op := congrArg Shelf.op h
theorem bars_of_shelf : t.store.bars = s.store.bars := congrArg Shelf.bars h
theorem starve_of_shelf : t.store.starve = s.store.starve := congrArg Shelf.starve h
theorem slowdown_of_shelf : t.store.slowdown = s.store.slowdown := congrArg Shelf.slowdown h
theorem memory_of_shelf : t.store.memory = s.store.memory := congrArg Shelf.memory h
theorem damage_of_shelf : t.store.damage = s.store.damage := congrArg Shelf.damage h
theorem pages_of_shelf : t.pages.map Page.shelf = s.pages.map Page.shelf := congrArg Shelf.pages h

end

theorem changePage_shelf {id : Nat} {f : Page → Page} {ps : List Page}
    (hf : ∀ p ∈ ps, p.id = id → (f p).shelf = p.shelf) : (changePage id f ps).map Page.shelf = ps.map Page.shelf := by
  rw [changePage, List.map_map]
  refine List.map_congr_left fun p hp => ?_
  rw [Function.comp_apply]
  split
  · exact hf p hp ‹_›
  · rfl

theorem updatePage_shelf (s : State) (id : Nat) {f : Page → Page}
    (hf : ∀ p ∈ s.pages, p.id = id → (f p).shelf = p.shelf) : (s.updatePage id f).shelf = s.shelf := by
  simp only [State.shelf, State.updatePage_pages, changePage_shelf hf]
  rfl

/-! ### The changes that an event at rows makes -/

/-- The page with an id has become DONE, and nothing else on the shelf has changed. -/
def PageDone (id : Nat) (s u : State) : Prop :=
  u.shelf = (s.updatePage id fun q => { q with state := .done }).shelf

/-- What an event at rows can do to the shelf. -/
inductive StoreStep : State → State → Prop
  | same {s t : State} (h : t.shelf = s.shelf) : StoreStep s t
  | starve (s : State) : StoreStep s (evaluateStarve s)
  | take (b : BarId) (page index : Nat) (s : State) : StoreStep s (takeStripe b page index s)
  | judge (b : BarId) (s : State) : StoreStep s (judgeRetirement b s)
  | start {p : Page} {s : State} (hp : p ∈ s.pages) (hopen : p.state = .opened) (T S : Nat) :
      StoreStep s (s.updatePage p.id fun q => { q with state := .started, trigger := some T, start := some S })
  | pageEnd {p : Page} {s u : State} (hp : ∃ q ∈ s.pages, q.id = p.id ∧ q.bars = p.bars) (hdone : PageDone p.id s u) :
      StoreStep s (storePageEnd p.bars u)
  | trans {s t u : State} (h : StoreStep s t) (k : StoreStep t u) : StoreStep s u

theorem StoreStep.refl (s : State) : StoreStep s s := .same rfl

/-- A change off the shelf before a step. -/
theorem StoreStep.after {s u t : State} (k : StoreStep u t) (h : u.shelf = s.shelf) : StoreStep s t :=
  (StoreStep.same h).trans k

/-! ### Reading image memory -/

theorem readWord_shelf (k : ReadKey) (place word : Nat) (s : State) : (readWord k place word s).2.shelf = s.shelf := by
  unfold readWord
  split
  · rfl
  · rfl
  · exact updatePage_shelf s k.page (f := fun p => { p with flags := { p.flags with memory := true } }) fun _ _ _ => rfl

theorem readWords_shelf (k : ReadKey) (place : Nat) (ws : List Nat) (s : State) :
    (readWords k place ws s).2.shelf = s.shelf := by
  induction ws generalizing s with
  | nil => rfl
  | cons w ws ih => exact (ih _).trans (readWord_shelf k place w s)

theorem readbackWords_shelf (n : Nat) (rb : Readback) (s : State) : (readbackWords n rb s).2.shelf = s.shelf := by
  induction n generalizing rb s with
  | zero => rfl
  | succ n ih =>
    unfold readbackWords
    split
    · exact (ih _ _).trans (readWord_shelf _ _ _ s)
    · rfl

/-! ### Rows and ports -/

theorem clearLatch_shelf (r : RowId) (s : State) : (clearLatch r s).shelf = s.shelf := by
  unfold clearLatch
  split <;> rfl

theorem startPlay_shelf (r : RowId) (codes : List Code) (s : State) : (startPlay r codes s).shelf = s.shelf := by
  unfold startPlay
  dsimp only
  split <;> rfl

theorem carryOut_shelf (r : RowId) (c : Cursor) (o : LineOutcome) (s : State) :
    (carryOut r c o s).shelf = s.shelf := by
  cases o with
  | fired list => exact startPlay_shelf r list.codes s
  | dropped cause => exact clearLatch_shelf r s

theorem takeUp_shelf (r : RowId) (next : Option Page) (s : State) : (takeUp r next s).shelf = s.shelf := by
  cases next <;> rfl

theorem judgeChangeover_shelf (b : BarId) (s : State) : (judgeChangeover b s).shelf = s.shelf := by
  unfold judgeChangeover
  split
  · rfl
  · split <;> rfl

theorem judgeChangeovers_shelf (bs : List BarId) (s : State) : (judgeChangeovers bs s).shelf = s.shelf := by
  induction bs generalizing s with
  | nil => rfl
  | cons b bs ih => exact (ih _).trans (judgeChangeover_shelf b s)

theorem reportDone_shelf (id : Nat) (s : State) : (reportDone id s).shelf = s.shelf := by
  unfold reportDone
  split <;> rfl

theorem noteUnderrun_shelf (b : BarId) (page line : Nat) (s : State) :
    (noteUnderrun b page line s).shelf = s.shelf :=
  updatePage_shelf s page (f := fun p => { p with flags := { p.flags with underrun := true } }) fun _ _ _ => rfl

theorem fetchWords_shelf (n : Nat) (r : RowId) (s : State) : (fetchWords n r s).shelf = s.shelf := by
  unfold fetchWords
  split
  · split
    · rfl
    · exact readWords_shelf _ _ _ s
  · rfl

theorem faultPort_shelf (p : PortId) (cause : FaultCause) (s : State) : (faultPort p cause s).shelf = s.shelf := by
  unfold faultPort
  split
  · exact (clearLatch_shelf _ _).trans (clearLatch_shelf _ _)
  · rfl

theorem takeBrief_shelf (p : PortId) (st : BriefStatus) (s : State) : (takeBrief p st s).shelf = s.shelf := by
  unfold takeBrief
  dsimp only
  split <;> rfl

theorem endAssembly_shelf (query : Bool) (r : RowId) (s : State) : (endAssembly query r s).shelf = s.shelf := by
  unfold endAssembly
  split
  · dsimp only
    split <;> exact fetchWords_shelf _ r s
  · rfl

theorem grantShift_shelf (p : PortId) (l : Letter) (rest : List Requester) (s : State) :
    (grantShift p l rest s).shelf = s.shelf := by
  unfold grantShift
  split <;> rfl

theorem completeLoad_shelf (p : PortId) (h : LineHeader) (st : BriefStatus) (s : State) :
    (completeLoad p h st s).shelf = s.shelf := by
  unfold completeLoad
  dsimp only
  split
  · exact (faultPort_shelf p _ _).trans (takeBrief_shelf p st s)
  · split
    · exact (faultPort_shelf p _ _).trans (takeBrief_shelf p st s)
    · exact takeBrief_shelf p st s

theorem endQuery_shelf (p : PortId) (answer : Option QueryReply) (s : State) :
    (endQuery p answer s).shelf = s.shelf := by
  unfold endQuery
  dsimp only
  split
  · split
    · exact faultPort_shelf p _ _
    · rfl
  · exact faultPort_shelf p _ _

/-! ### Loads, fire decisions and pages -/

theorem storeStep_beginLoad (n : Nat) (r : RowId) (s : State) : StoreStep s (beginLoad n r s) := by
  unfold beginLoad
  split
  · split
    · unfold beginLoadAt
      split
      · refine ((StoreStep.same ?_).trans (.take _ _ _ _)).trans (.same (fetchWords_shelf _ _ _))
        rfl
      · exact .same (noteUnderrun_shelf _ _ _ _)
    · exact .refl s
  · exact .refl s

/-- A page that closes is one of the queue (R42). -/
theorem storeStep_closePage {p : Page} {s : State} (hp : findPage s.pages p.id = some p) :
    StoreStep s (closePage p s) :=
  .pageEnd ⟨p, List.mem_of_find?_eq_some hp, rfl, rfl⟩ (reportDone_shelf p.id _)

theorem findPage_id {ps : List Page} {id : Nat} {p : Page} (h : findPage ps id = some p) : p.id = id := by
  simpa using List.find?_some h

theorem storeStep_finishPage (id : Nat) (s : State) : StoreStep s (finishPage id s) := by
  have hcount : StoreStep s (s.updatePage id fun p => { p with rowsFinished := p.rowsFinished + 1 }) :=
    .same (updatePage_shelf s id fun _ _ _ => rfl)
  unfold finishPage
  dsimp only
  split
  · rename_i p hp
    split
    · exact hcount.trans (storeStep_closePage ((findPage_id hp).symm ▸ hp))
    · exact hcount
  · exact hcount

theorem storeStep_moveOn (n : Nat) (r : RowId) (c : Cursor) (s : State) : StoreStep s (moveOn n r c s) := by
  unfold moveOn
  split
  · exact .same rfl
  · split
    · exact (storeStep_beginLoad n r (placeCursor r c.page (c.line + 1) s)).after rfl
    · exact ((StoreStep.same (takeUp_shelf r _ s)).trans (storeStep_finishPage _ _)).trans (storeStep_beginLoad _ _ _)

theorem storeStep_handOn (n : Nat) (r : RowId) (c : Cursor) (o : LineOutcome) (s : State) :
    StoreStep s (handOn n r c o s) := by
  refine ((StoreStep.trans (.same ?_) (storeStep_moveOn n r c _)).trans (.judge _ _)).trans
    (.same (judgeChangeover_shelf _ _))
  exact updatePage_shelf s c.page (f := fun p => p.count o) fun p _ _ => by cases o <;> rfl

theorem storeStep_fireDecision (n : Nat) (r : RowId) (s : State) : StoreStep s (fireDecision n r s) := by
  unfold fireDecision
  split
  · exact .refl s
  · split
    · exact .refl s
    · split
      · exact .refl s
      · exact (StoreStep.same (carryOut_shelf r _ _ s)).trans (storeStep_handOn n r _ _ _)

theorem storeStep_arriveAll (n H : Nat) (rs : List RowId) (s : State) : StoreStep s (arriveAll n H rs s) := by
  induction rs generalizing s with
  | nil => exact .refl s
  | cons r rs ih =>
    refine StoreStep.trans ?_ (ih _)
    unfold arrive
    split
    · exact storeStep_fireDecision n r s
    · exact .refl s

theorem storeStep_takeUpStarts (n : Nat) (p : Page) (rs : List RowId) (s : State) :
    StoreStep s (takeUpStarts n p rs s) := by
  induction rs generalizing s with
  | nil => exact .refl s
  | cons r rs ih =>
    refine StoreStep.trans ?_ (ih _)
    unfold takeUpStart
    split
    · exact .refl s
    · split
      · exact (storeStep_beginLoad n r (placeCursor r p.id 0 s)).after rfl
      · exact .refl s

theorem storeStep_startPage (env : Outside) {p : Page} (T S : Nat) {s : State} (hp : p ∈ s.pages)
    (hopen : p.state = .opened) : StoreStep s (startPage env p T S s) :=
  ((StoreStep.start hp hopen T S).trans (storeStep_takeUpStarts _ p _ _)).trans (.starve _)

theorem storeStep_leavePages (n id : Nat) (rs : List RowId) (s : State) : StoreStep s (leavePages n id rs s) := by
  induction rs generalizing s with
  | nil => exact .refl s
  | cons r rs ih =>
    refine StoreStep.trans ?_ (ih _)
    unfold leavePage
    split
    · exact .refl s
    · split
      · exact (StoreStep.same ((takeUp_shelf r _ _).trans (clearLatch_shelf r s))).trans (storeStep_beginLoad n r _)
      · exact .refl s

/-- An event at rows leaves what a page was opened with. -/
theorem exists_page_of_opening {s t : State} (h : t.pages.map Page.opening = s.pages.map Page.opening) {p : Page}
    (hp : p ∈ s.pages) : ∃ q ∈ t.pages, q.id = p.id ∧ q.bars = p.bars := by
  have hmem : p.opening ∈ t.pages.map Page.opening := h ▸ List.mem_map_of_mem hp
  obtain ⟨q, hq, he⟩ := List.mem_map.mp hmem
  simp only [Page.opening, Prod.mk.injEq] at he
  exact ⟨q, hq, he.1, he.2.2.1⟩

theorem pageDone_abort (id : Nat) (s : State) : PageDone id s (s.updatePage id Page.abort) := by
  have hpages : (changePage id Page.abort s.pages).map Page.shelf =
      (changePage id (fun q => { q with state := .done }) s.pages).map Page.shelf := by
    rw [changePage, changePage, List.map_map, List.map_map]
    exact List.map_congr_left fun q _ => by by_cases hq : q.id = id <;> simp [hq, Page.shelf, Page.abort]
  simp only [PageDone, State.shelf, State.updatePage_pages, hpages]
  rfl

/-- A page of the queue is aborted (R44, R45). -/
theorem storeStep_abortPage (env : Outside) {p : Page} {s : State} (hp : p ∈ s.pages) :
    StoreStep s (abortPage env p s) := by
  have hpage := exists_page_of_opening (rowEvent_leavePages env.fetched p.id (rowOrder env) s).opening hp
  unfold abortPage
  dsimp only
  exact ((storeStep_leavePages env.fetched p.id (rowOrder env) s).trans (.pageEnd hpage (pageDone_abort _ _))).trans
    (.same ((reportDone_shelf _ _).trans (judgeChangeovers_shelf _ _)))

theorem storeStep_recoverRows (n : Nat) (rs : List RowId) (s : State) : StoreStep s (recoverRows n rs s) := by
  induction rs generalizing s with
  | nil => exact .refl s
  | cons r rs ih =>
    exact ((storeStep_beginLoad n r (s.updateRow r fun row => { row with errors := 0 })).after (s := s) rfl).trans (ih _)

end Sys2Proof.Machine
end

section
/-! PROOF. Every command but those that set the rings up, change the operating state, open or release a page or bring a
stripe piece changes the shelf as an event at rows does. -/

namespace Sys2Proof.Machine

/-! ### Judgements that leave the shelf alone -/

/-- A judgement that leaves the shelf alone, and whose work, if it lasts, is a query or fits the operating state. -/
structure Kept (s : State) (r : State × Answer) : Prop where
  shelf : r.1.shelf = s.shelf
  work : ∀ w, r.2 = .working w → w.fits s.control.op = true ∨ ∃ p, w = .headStatus p

theorem kept_done {s t : State} (st : Status) (fields : List Byte) (h : t.shelf = s.shelf) :
    Kept s (t, .done st fields) := ⟨h, by simp⟩

theorem kept_judgeSetLinkRate (ps : List Byte) (s : State) : Kept s (judgeSetLinkRate ps s) := by
  unfold judgeSetLinkRate
  repeat' split
  all_goals exact kept_done _ _ (by rfl)

theorem kept_judgeSync (ps : List Byte) (s : State) : Kept s (judgeSync ps s) := by
  unfold judgeSync
  repeat' split
  all_goals exact kept_done _ _ (by rfl)

theorem kept_judgeLoadStitchMask (ps : List Byte) (s : State) : Kept s (judgeLoadStitchMask ps s) := by
  unfold judgeLoadStitchMask
  repeat' split
  all_goals exact kept_done _ _ (by rfl)

theorem kept_judgeReadPosition (ps : List Byte) (s : State) : Kept s (judgeReadPosition ps s) := by
  unfold judgeReadPosition
  repeat' split
  all_goals exact kept_done _ _ (by rfl)

theorem kept_judgePageStatus (ps : List Byte) (s : State) : Kept s (judgePageStatus ps s) := by
  unfold judgePageStatus
  repeat' split
  all_goals exact kept_done _ _ (by rfl)

theorem kept_judgeReadMemoryErrors (ps : List Byte) (s : State) : Kept s (judgeReadMemoryErrors ps s) := by
  unfold judgeReadMemoryErrors
  repeat' split
  all_goals exact kept_done _ _ (by rfl)

theorem kept_judgeLoadWaveform (ps : List Byte) (s : State) : Kept s (judgeLoadWaveform ps s) := by
  unfold judgeLoadWaveform
  repeat' split
  all_goals exact kept_done _ _ (by rfl)

theorem kept_judgeSetDriveScale (ps : List Byte) (s : State) : Kept s (judgeSetDriveScale ps s) := by
  unfold judgeSetDriveScale
  repeat' split
  all_goals exact kept_done _ _ (by rfl)

theorem kept_judgeSetGuard (ps : List Byte) (s : State) : Kept s (judgeSetGuard ps s) := by
  unfold judgeSetGuard
  repeat' split
  all_goals exact kept_done _ _ (by rfl)

theorem kept_judgeReleaseGuard (ps : List Byte) (s : State) : Kept s (judgeReleaseGuard ps s) := by
  unfold judgeReleaseGuard
  repeat' split
  all_goals exact kept_done _ _ (by rfl)

theorem kept_judgeReadGuard (ps : List Byte) (s : State) : Kept s (judgeReadGuard ps s) := by
  unfold judgeReadGuard
  repeat' split
  all_goals exact kept_done _ _ (by rfl)

theorem kept_judgeFetchReport (ps : List Byte) (s : State) : Kept s (judgeFetchReport ps s) := by
  unfold judgeFetchReport
  repeat' split
  all_goals exact kept_done _ _ (by rfl)

theorem kept_judgeSetMotion (ps : List Byte) (s : State) : Kept s (judgeSetMotion ps s) := by
  unfold judgeSetMotion
  repeat' split
  all_goals exact kept_done _ _ (by rfl)

theorem kept_judgeLoadDefectList (ps : List Byte) (s : State) : Kept s (judgeLoadDefectList ps s) := by
  unfold judgeLoadDefectList installDefects
  repeat' split
  all_goals exact kept_done _ _ (by rfl)

theorem kept_judgeDefineHead (ps : List Byte) (s : State) : Kept s (judgeDefineHead ps s) := by
  unfold judgeDefineHead
  repeat' split
  on_goal 5 => exact kept_done _ _ ((apply_ite State.shelf _ _ _).trans (ite_self _))
  all_goals exact kept_done _ _ (by rfl)

/-- A query may begin in every operating state in which no request is in progress (R133). -/
theorem kept_judgeHeadStatus (ps : List Byte) (s : State) : Kept s (judgeHeadStatus ps s) := by
  unfold judgeHeadStatus
  repeat' split
  on_goal 4 => exact ⟨rfl, fun w hw => .inr ⟨_, (Answer.working.inj hw).symm⟩⟩
  all_goals exact kept_done _ _ (by rfl)

/-- A head's fault is cleared ONLINE (R135). -/
theorem kept_judgeClearHeadFault (ps : List Byte) (s : State) : Kept s (judgeClearHeadFault ps s) := by
  unfold judgeClearHeadFault
  split
  · exact kept_done _ _ rfl
  · rename_i hop
    repeat' split
    on_goal 4 => exact ⟨rfl, by rintro _ ⟨⟩; simpa [Work.fits] using hop⟩
    all_goals exact kept_done _ _ (by rfl)

/-- A stripe is read back ONLINE (R74). -/
theorem kept_judgeStripeChecksum (ps : List Byte) (first : Nat) (s : State) :
    Kept s (judgeStripeChecksum ps first s) := by
  unfold judgeStripeChecksum
  split
  · exact kept_done _ _ rfl
  · rename_i hop
    repeat' split
    on_goal 4 => exact ⟨readbackWords_shelf _ _ s, by rintro _ ⟨⟩; simpa [Work.fits] using hop⟩
    all_goals exact kept_done _ _ (by rfl)

/-! ### Events -/

theorem storeStep_forwardTick (env : Outside) (s : State) : StoreStep s (forwardTick env s) := by
  unfold forwardTick
  dsimp only
  split
  · exact (storeStep_arriveAll _ _ _ (s.updateMotion Motion.forwardTick)).after rfl
  · exact .same rfl

theorem storeStep_passOn (env : Outside) (c : Option TickClass) (s : State) : StoreStep s (passOn env c s) := by
  unfold passOn
  split
  · split
    · exact storeStep_forwardTick env s
    · exact .same rfl
    · exact .same rfl
    · exact .refl s
  · exact .refl s

theorem storeStep_judgeTrigger (env : Outside) (s : State) : StoreStep s (judgeTrigger env s) := by
  unfold judgeTrigger
  dsimp only
  split
  · exact .same rfl
  · split
    · exact .same rfl
    · split
      · exact .same rfl
      · rename_i p hp
        obtain ⟨hmem, hopen⟩ := mem_of_oldestOpen hp
        exact StoreStep.after (storeStep_startPage env _ _ (s := s.updateMotion _) hmem hopen) (s := s) rfl

theorem storeStep_judgeAbortPage (ps : List Byte) (env : Outside) (s : State) :
    StoreStep s (judgeAbortPage ps env s).1 := by
  unfold judgeAbortPage
  split
  · exact .refl s
  · split
    · exact .refl s
    · split
      · exact .refl s
      · split
        · exact .refl s
        · rename_i p hp _
          rw [reply_fst]
          exact storeStep_abortPage env (List.mem_of_find?_eq_some hp)

theorem storeStep_recovered (env : Outside) (p : PortId) (answer : BriefStatus) (s : State) :
    StoreStep s (recovered env p answer s) := by
  have h := storeStep_recoverRows env.fetched (portRows env p)
    (s.updatePort p fun q => { q with state := .ready, cause := .none })
  exact (h.after (s := s) rfl).trans (.same rfl)

/-! ### Commands -/

/-- The commands that set the rings up, change the operating state, open or release a page, or bring a stripe piece. -/
def restocks : Instr → Bool
  | .powerOnReset .. | .goOnline _ | .probeAnswer .. | .probeTimeout _ | .goOffline _ | .clear _ | .drainComplete
  | .openPage _ | .releasePage _ | .setRingSizes _ | .setStarveThreshold _ | .stripePiece _ => true
  | _ => false

/-- A request changes the shelf as its judgement does. -/
theorem storeStep_takeRequest {judge : State → State × Answer} (hj : ∀ u, StoreStep u (judge u).1) (code : Byte)
    (ps : List Byte) (s : State) : StoreStep s (takeRequest code ps judge s) :=
  takeRequest_keeps (P := StoreStep s) (fun _ _ h => h.trans (.same rfl)) (.refl s)
    (fun l => (hj { s with link := l }).after rfl) code ps

theorem takeRequest_shelf {judge : State → State × Answer} (hj : ∀ u : State, (judge u).1.shelf = u.shelf) (code : Byte)
    (ps : List Byte) (s : State) : (takeRequest code ps judge s).shelf = s.shelf :=
  takeRequest_keeps (P := fun u => u.shelf = s.shelf) (fun _ _ h => h) rfl (fun _ => hj _) code ps

/-- Words are damaged that the surroundings name, and then the shelf changes as an event at rows changes it. -/
def Stocked (s t : State) : Prop := ∃ us, StoreStep (upset us s) t

theorem stocked_of_step {s t : State} (h : StoreStep s t) : Stocked s t := ⟨[], h.after rfl⟩

theorem stocked_of_shelf {s t : State} (h : t.shelf = s.shelf) : Stocked s t := stocked_of_step (.same h)

/-- No command but those of `restocks` changes the shelf in another way. -/
theorem exec_stocked {c : Instr} (hc : restocks c = false) {s t : State} (h : exec c s = .next t) : Stocked s t := by
  cases c with
  | powerOnReset | goOnline | probeAnswer | probeTimeout | goOffline | clear | drainComplete | openPage | releasePage
  | setRingSizes | setStarveThreshold | stripePiece => cases hc
  | encoderChange a b env =>
    obtain rfl := Host.Outcome.next.inj h
    exact ⟨env.upsets, (storeStep_passOn env _ _).after rfl⟩
  | triggerEdge level env =>
    obtain rfl := Host.Outcome.next.inj h
    refine ⟨env.upsets, ?_⟩
    split
    · exact (storeStep_judgeTrigger env _).after rfl
    · exact .same rfl
  | assemblyEnd port rowA rowB env =>
    obtain rfl := Host.Outcome.next.inj h
    have hA : (if rowA then endAssembly env.query (rowOf port .A) (upset env.upsets s)
        else upset env.upsets s).shelf = (upset env.upsets s).shelf := by
      split
      · exact endAssembly_shelf _ _ _
      · rfl
    refine ⟨env.upsets, .same ?_⟩
    split
    · exact (endAssembly_shelf _ _ _).trans hA
    · exact hA
  | linkGrant port =>
    obtain rfl := Host.Outcome.next.inj h
    refine stocked_of_shelf ?_
    split
    · exact grantShift_shelf _ _ _ s
    · rfl
    · rfl
  | loadCompletion port st =>
    obtain rfl := Host.Outcome.next.inj h
    refine stocked_of_shelf ?_
    split
    · exact completeLoad_shelf _ _ _ s
    · rfl
  | loadNoAnswer port =>
    obtain rfl := Host.Outcome.next.inj h
    refine stocked_of_shelf ?_
    split
    · exact faultPort_shelf port _ s
    · rfl
  | lateAnswer port answer =>
    obtain rfl := Host.Outcome.next.inj h
    exact stocked_of_shelf rfl
  | playCompletion row =>
    obtain rfl := Host.Outcome.next.inj h
    exact stocked_of_shelf rfl
  | badFrame kind length rest =>
    obtain rfl := Host.Outcome.next.inj h
    refine stocked_of_shelf ?_
    split
    · rfl
    · split
      · exact rejectFrame_keeps (P := fun u => u.shelf = s.shelf) (fun _ _ h => h) rfl _ _
      · rfl
      · rfl
  | frameTimeout =>
    obtain rfl := Host.Outcome.next.inj h
    exact stocked_of_shelf rfl
  | unknownRequest code ps =>
    obtain rfl := Host.Outcome.next.inj h
    refine stocked_of_shelf ?_
    split
    · rfl
    · exact takeRequest_shelf (fun _ => rfl) code ps s
  | replySent =>
    obtain rfl := Host.Outcome.next.inj h
    refine stocked_of_shelf ?_
    split <;> rfl
  | trialRevert =>
    obtain rfl := Host.Outcome.next.inj h
    refine stocked_of_shelf ?_
    split <;> rfl
  | startMark kind =>
    obtain rfl := Host.Outcome.next.inj h
    refine stocked_of_shelf ?_
    split <;> rfl
  | abortPage ps env =>
    obtain rfl := Host.Outcome.next.inj h
    exact ⟨env.upsets, storeStep_takeRequest (storeStep_judgeAbortPage ps env) _ ps _⟩
  | stripeChecksum ps env =>
    obtain rfl := Host.Outcome.next.inj h
    exact ⟨env.upsets, .same (takeRequest_shelf (fun u => (kept_judgeStripeChecksum ps env.fetched u).shelf) _ ps _)⟩
  | checksumReadbackEnd us =>
    obtain rfl := Host.Outcome.next.inj h
    refine ⟨us, .same ?_⟩
    split
    · exact readbackWords_shelf _ _ _
    · rfl
  | queryAnswer port answer =>
    obtain rfl := Host.Outcome.next.inj h
    refine stocked_of_shelf ?_
    split
    · exact endQuery_shelf _ _ s
    · rfl
  | queryNoAnswer port =>
    obtain rfl := Host.Outcome.next.inj h
    refine stocked_of_shelf ?_
    split
    · exact endQuery_shelf _ _ s
    · rfl
  | resetAnswer port st =>
    obtain rfl := Host.Outcome.next.inj h
    refine stocked_of_shelf ?_
    split
    · exact takeBrief_shelf port st s
    · rfl
  | resetTimeout port =>
    obtain rfl := Host.Outcome.next.inj h
    refine stocked_of_shelf ?_
    split <;> rfl
  | setLinkRate ps =>
    obtain rfl := Host.Outcome.next.inj h
    exact stocked_of_shelf (takeRequest_shelf (fun u => (kept_judgeSetLinkRate ps u).shelf) _ ps s)
  | sync ps =>
    obtain rfl := Host.Outcome.next.inj h
    exact stocked_of_shelf (takeRequest_shelf (fun u => (kept_judgeSync ps u).shelf) _ ps s)
  | loadStitchMask ps =>
    obtain rfl := Host.Outcome.next.inj h
    exact stocked_of_shelf (takeRequest_shelf (fun u => (kept_judgeLoadStitchMask ps u).shelf) _ ps s)
  | loadDefectList ps =>
    obtain rfl := Host.Outcome.next.inj h
    exact stocked_of_shelf (takeRequest_shelf (fun u => (kept_judgeLoadDefectList ps u).shelf) _ ps s)
  | readPosition ps =>
    obtain rfl := Host.Outcome.next.inj h
    exact stocked_of_shelf (takeRequest_shelf (fun u => (kept_judgeReadPosition ps u).shelf) _ ps s)
  | pageStatus ps =>
    obtain rfl := Host.Outcome.next.inj h
    exact stocked_of_shelf (takeRequest_shelf (fun u => (kept_judgePageStatus ps u).shelf) _ ps s)
  | readMemoryErrors ps =>
    obtain rfl := Host.Outcome.next.inj h
    exact stocked_of_shelf (takeRequest_shelf (fun u => (kept_judgeReadMemoryErrors ps u).shelf) _ ps s)
  | loadWaveform ps =>
    obtain rfl := Host.Outcome.next.inj h
    exact stocked_of_shelf (takeRequest_shelf (fun u => (kept_judgeLoadWaveform ps u).shelf) _ ps s)
  | setDriveScale ps =>
    obtain rfl := Host.Outcome.next.inj h
    exact stocked_of_shelf (takeRequest_shelf (fun u => (kept_judgeSetDriveScale ps u).shelf) _ ps s)
  | setGuard ps =>
    obtain rfl := Host.Outcome.next.inj h
    exact stocked_of_shelf (takeRequest_shelf (fun u => (kept_judgeSetGuard ps u).shelf) _ ps s)
  | releaseGuard ps =>
    obtain rfl := Host.Outcome.next.inj h
    exact stocked_of_shelf (takeRequest_shelf (fun u => (kept_judgeReleaseGuard ps u).shelf) _ ps s)
  | readGuard ps =>
    obtain rfl := Host.Outcome.next.inj h
    exact stocked_of_shelf (takeRequest_shelf (fun u => (kept_judgeReadGuard ps u).shelf) _ ps s)
  | fetchReport ps =>
    obtain rfl := Host.Outcome.next.inj h
    exact stocked_of_shelf (takeRequest_shelf (fun u => (kept_judgeFetchReport ps u).shelf) _ ps s)
  | headStatus ps =>
    obtain rfl := Host.Outcome.next.inj h
    exact stocked_of_shelf (takeRequest_shelf (fun u => (kept_judgeHeadStatus ps u).shelf) _ ps s)
  | clearHeadFault ps =>
    obtain rfl := Host.Outcome.next.inj h
    exact stocked_of_shelf (takeRequest_shelf (fun u => (kept_judgeClearHeadFault ps u).shelf) _ ps s)
  | defineHead ps =>
    obtain rfl := Host.Outcome.next.inj h
    exact stocked_of_shelf (takeRequest_shelf (fun u => (kept_judgeDefineHead ps u).shelf) _ ps s)
  | setMotion ps =>
    obtain rfl := Host.Outcome.next.inj h
    exact stocked_of_shelf (takeRequest_shelf (fun u => (kept_judgeSetMotion ps u).shelf) _ ps s)

end Sys2Proof.Machine
end

section
/-! PROOF. Image memory (R52, R70): no command but a stripe piece writes it or makes a damaged word correct (O16), and
every step keeps its canonical form (O8). -/

namespace Sys2Proof.Machine

/-! ### Image memory and its check bits -/

/-- The bytes of image memory and what its check bits show. -/
def State.image (s : State) : Memory × List (Nat × Damage) := (s.store.memory, s.store.damage)

theorem image_of_shelf {s t : State} (h : t.shelf = s.shelf) : t.image = s.image :=
  Prod.ext (memory_of_shelf h) (damage_of_shelf h)

theorem evaluateStarve_image (s : State) : (evaluateStarve s).image = s.image := by
  unfold evaluateStarve
  split <;> split <;> rfl

theorem refreshCursors_image (s : State) : (refreshCursors s).image = s.image := rfl

theorem judgeRetirement_image (b : BarId) (s : State) : (judgeRetirement b s).image = s.image := by
  rw [judgeRetirement_eq]
  split
  · rfl
  · exact evaluateStarve_image _

theorem judgeRetirements_image (bs : List BarId) (s : State) : (judgeRetirements bs s).image = s.image := by
  induction bs generalizing s with
  | nil => rfl
  | cons b bs ih => exact (ih _).trans (judgeRetirement_image b s)

theorem storePageEnd_image (bars : Vector Bool 4) (s : State) : (storePageEnd bars s).image = s.image :=
  (evaluateStarve_image _).trans ((refreshCursors_image _).trans (judgeRetirements_image _ s))

theorem takeStripe_image (b : BarId) (page index : Nat) (s : State) : (takeStripe b page index s).image = s.image := by
  unfold takeStripe
  split
  · exact evaluateStarve_image _
  · rfl

theorem StoreStep.image {s t : State} (h : StoreStep s t) : t.image = s.image := by
  induction h with
  | same h => exact image_of_shelf h
  | starve s => exact evaluateStarve_image s
  | take b page index s => exact takeStripe_image b page index s
  | judge b s => exact judgeRetirement_image b s
  | start hp hopen T S => rfl
  | pageEnd hp hdone => exact (storePageEnd_image _ _).trans ((image_of_shelf hdone).trans rfl)
  | trans h k ih ik => exact ik.trans ih

/-! ### The commands beyond events at rows -/

theorem judgeGoOnline_image (ps : List Byte) (s : State) : (judgeGoOnline ps s).1.image = s.image := by
  unfold judgeGoOnline
  repeat' split
  all_goals rfl

theorem teardown_image (s : State) : (teardown s).image = s.image := by
  unfold teardown
  dsimp only
  split <;> rfl

theorem judgeGoOffline_image (ps : List Byte) (s : State) : (judgeGoOffline ps s).1.image = s.image := by
  unfold judgeGoOffline
  split
  · rfl
  · split
    · rfl
    · exact teardown_image (s.withOp .draining)

theorem judgeClear_image (ps : List Byte) (s : State) : (judgeClear ps s).1.image = s.image := by
  unfold judgeClear
  split
  · rfl
  · split
    · rfl
    · split
      · exact teardown_image (s.withOp .draining)
      · rfl

theorem judgeOpenPage_image (ps : List Byte) (s : State) : (judgeOpenPage ps s).1.image = s.image := by
  unfold judgeOpenPage
  dsimp only
  repeat' split
  all_goals rfl

theorem judgeReleasePage_image (ps : List Byte) (s : State) : (judgeReleasePage ps s).1.image = s.image := by
  unfold judgeReleasePage
  dsimp only
  repeat' split
  all_goals rfl

theorem judgeSetRingSizes_image (ps : List Byte) (s : State) : (judgeSetRingSizes ps s).1.image = s.image := by
  unfold judgeSetRingSizes
  dsimp only
  repeat' split
  all_goals rfl

theorem judgeSetStarveThreshold_image (ps : List Byte) (s : State) :
    (judgeSetStarveThreshold ps s).1.image = s.image := by
  unfold judgeSetStarveThreshold
  split
  · rfl
  · split
    · rfl
    · exact evaluateStarve_image _

theorem endProbe_image (env : Outside) (p : PortId) (w : Work) (cause : Option FaultCause)
    (answer : Option BriefStatus) (s : State) : (endProbe env p w cause answer s).image = s.image := by
  unfold endProbe
  split
  · rfl
  · unfold goOnlineNext
    dsimp only
    split <;> rfl
  · rfl
  · exact (storeStep_recovered env p _ s).image
  · rfl

theorem takeRequest_image {judge : State → State × Answer} (hj : ∀ u : State, (judge u).1.image = u.image) (code : Byte)
    (ps : List Byte) (s : State) : (takeRequest code ps judge s).image = s.image :=
  takeRequest_keeps (P := fun u => u.image = s.image) (fun _ _ h => h) rfl (fun _ => hj _) code ps

/-- No command but a stripe piece does more to image memory than that words of it go wrong (R52, R71). -/
theorem exec_image {c : Instr} (hpiece : ∀ body, c ≠ .stripePiece body) {s t : State} (h : exec c s = .next t) :
    ∃ us, t.image = (upset us s).image := by
  cases hc : restocks c with
  | false =>
    obtain ⟨us, hstep⟩ := exec_stocked hc h
    exact ⟨us, hstep.image⟩
  | true =>
    cases c with
    | powerOnReset a b g =>
      obtain rfl := Host.Outcome.next.inj h
      exact ⟨[], rfl⟩
    | goOnline ps =>
      obtain rfl := Host.Outcome.next.inj h
      exact ⟨[], takeRequest_image (judgeGoOnline_image ps) _ ps s⟩
    | probeAnswer port st env =>
      obtain rfl := Host.Outcome.next.inj h
      refine ⟨env.upsets, ?_⟩
      split
      · split
        · exact (endProbe_image _ _ _ _ _ _).trans (image_of_shelf (takeBrief_shelf port st (upset env.upsets s)))
        · rfl
      · rfl
    | probeTimeout port =>
      obtain rfl := Host.Outcome.next.inj h
      refine ⟨[], ?_⟩
      split
      · exact endProbe_image _ _ _ _ _ _
      · rfl
    | goOffline ps =>
      obtain rfl := Host.Outcome.next.inj h
      exact ⟨[], takeRequest_image (judgeGoOffline_image ps) _ ps s⟩
    | clear ps =>
      obtain rfl := Host.Outcome.next.inj h
      exact ⟨[], takeRequest_image (judgeClear_image ps) _ ps s⟩
    | drainComplete =>
      obtain rfl := Host.Outcome.next.inj h
      refine ⟨[], ?_⟩
      split
      · rename_i clear _ _
        split
        · cases clear <;> rfl
        · rfl
      · rfl
    | openPage ps =>
      obtain rfl := Host.Outcome.next.inj h
      exact ⟨[], takeRequest_image (judgeOpenPage_image ps) _ ps s⟩
    | releasePage ps =>
      obtain rfl := Host.Outcome.next.inj h
      exact ⟨[], takeRequest_image (judgeReleasePage_image ps) _ ps s⟩
    | setRingSizes ps =>
      obtain rfl := Host.Outcome.next.inj h
      exact ⟨[], takeRequest_image (judgeSetRingSizes_image ps) _ ps s⟩
    | setStarveThreshold ps =>
      obtain rfl := Host.Outcome.next.inj h
      exact ⟨[], takeRequest_image (judgeSetStarveThreshold_image ps) _ ps s⟩
    | stripePiece body => exact absurd rfl (hpiece body)
    | _ => cases hc

/-- Words that go wrong leave a damaged word damaged. -/
theorem damageOf_applyUpsets_isSome {us : List Upset} {ds : List (Nat × Damage)} {w : Nat}
    (h : (damageOf ds w).isSome = true) : (damageOf (applyUpsets us ds) w).isSome = true := by
  induction us generalizing ds with
  | nil => exact h
  | cons u us ih =>
    refine ih ?_
    rw [damageOf_setDamage]
    split
    · rfl
    · exact h

/-- Settles O16: of image memory, such a command changes only the words that the surroundings damage. -/
theorem onlyPiecesWriteImageMemory : Obligations.OnlyPiecesWriteImageMemory := by
  intro c s t hpiece h
  obtain ⟨us, himage⟩ := exec_image hpiece h
  have hmemory : t.store.memory = s.store.memory := congrArg Prod.fst himage
  have hdamage : t.store.damage = applyUpsets us s.store.damage := congrArg Prod.snd himage
  exact ⟨fun a => by rw [hmemory], fun w hw => by rw [hdamage]; exact damageOf_applyUpsets_isSome hw⟩

/-! ### Stripe pieces -/

theorem memoryOk_of_image {s t : State} (ok : MemoryOk s) (h : t.image = s.image) : MemoryOk t := by
  have hmemory : t.store.memory = s.store.memory := congrArg Prod.fst h
  have hdamage : t.store.damage = s.store.damage := congrArg Prod.snd h
  exact ⟨hmemory ▸ ok.canonical, hdamage ▸ ok.rising⟩

theorem memoryOk_upset {s : State} (ok : MemoryOk s) (us : List Upset) : MemoryOk (upset us s) where
  canonical := ok.canonical
  rising := damageRises_applyUpsets us ok.rising

theorem writeRows_wf (slot width place n : Nat) (data : List Byte) {st : Store} (hm : Memory.wf st.memory = true)
    (hd : damageRises st.damage) :
    Memory.wf (writeRows slot width place n data st).memory = true ∧
      damageRises (writeRows slot width place n data st).damage := by
  induction n generalizing place data st with
  | zero => exact ⟨hm, hd⟩
  | succ n ih =>
    obtain ⟨hm', hd'⟩ := writeRow_wf slot place (data.take width) hm hd
    exact ih (place + 1) (data.drop width) hm' hd'

theorem memoryOk_storeRows {s : State} (ok : MemoryOk s) (b : BarId) (pc : Piece) : MemoryOk (storeRows b pc s) := by
  unfold storeRows
  split
  · exact ok
  · obtain ⟨hm, hd⟩ := writeRows_wf _ (rowBytes s.geometry b) pc.firstRow pc.rowCount pc.data ok.canonical ok.rising
    exact ⟨hm, hd⟩

theorem completeStripe_image (b : BarId) (pc : Piece) (s : State) : (completeStripe b pc s).image = s.image := by
  unfold completeStripe
  exact (evaluateStarve_image _).trans ((refreshCursors_image _).trans rfl)

theorem discardStripe_image (b : BarId) (s : State) : (discardStripe b s).image = s.image := refreshCursors_image _

theorem memoryOk_storePiece {s : State} (ok : MemoryOk s) (b : BarId) (pc : Piece) (R : Nat) :
    MemoryOk (storePiece b pc R s).1 := by
  have hopen : MemoryOk (if pc.firstRow = 0 then openStripe b pc R s else s) := by
    split
    · exact memoryOk_of_image ok rfl
    · exact ok
  have hstore := memoryOk_storeRows hopen b pc
  unfold storePiece
  dsimp only
  generalize storeRows b pc (if pc.firstRow = 0 then openStripe b pc R s else s) = u at hstore
  split
  · split
    · exact memoryOk_of_image hstore (completeStripe_image b pc u)
    · exact memoryOk_of_image hstore (discardStripe_image b u)
  · exact memoryOk_of_image hstore (refreshCursors_image u)

theorem memoryOk_judgeStripePiece {s : State} (ok : MemoryOk s) (body : List Byte) :
    MemoryOk (judgeStripePiece body s).1 := by
  unfold judgeStripePiece
  dsimp only
  repeat' split
  on_goal 10 => exact memoryOk_storePiece ok _ _ _
  all_goals exact ok

/-- Every command keeps image memory in its canonical form: a stripe piece writes whole rows, and no other command does
more than damage words. -/
theorem exec_memoryOk {c : Instr} {s t : State} (ok : MemoryOk s) (h : exec c s = .next t) : MemoryOk t := by
  by_cases hpiece : ∃ body, c = .stripePiece body
  · obtain ⟨body, rfl⟩ := hpiece
    obtain rfl := Host.Outcome.next.inj h
    exact takeData_keeps (P := MemoryOk) (fun _ _ h => memoryOk_of_image h rfl) ok
      (fun l => memoryOk_judgeStripePiece (s := { s with link := l }) { ok with } body) body
  · rw [not_exists] at hpiece
    obtain ⟨us, himage⟩ := exec_image hpiece h
    exact memoryOk_of_image (memoryOk_upset ok us) himage

/-- Settles O8. -/
theorem stepsKeepMemoryOk : Obligations.StepsKeepMemoryOk := fun _ _ ok h =>
  step_keeps (P := MemoryOk) (fun _ _ ok => memoryOk_of_image ok rfl) (fun _ _ _ ok h => exec_memoryOk ok h) ok h

end Sys2Proof.Machine
end

section
/-! PROOF. Every step keeps the operating state in agreement with the rest of the part (O10): the request in progress
(R149, R155), the starve condition with SLOWDOWN (R69), the page queue and the row channels (R76, R97). -/

namespace Sys2Proof.Machine

/-! ### The three agreements -/

/-- SLOWDOWN follows the starve condition, which holds only ONLINE. -/
structure StarveTied (s : State) : Prop where
  slowdown : s.store.slowdown = s.store.starve
  starve_online : s.store.starve = true → s.control.op = .online

/-- The page queue is empty but ONLINE, and the row channels are those of the defined heads, ONLINE and DRAINING. -/
structure Present (s : State) : Prop where
  pages_online : s.pages ≠ [] → s.control.op = .online
  rows_exist : ∀ r : RowId, (s.row r).isSome =
    ((decide (s.control.op = .online) || decide (s.control.op = .draining)) && (entry s.geometry.heads (portOf r)).isSome)

theorem operatingOk_iff {s : State} : OperatingOk s ↔ workFits s = true ∧ StarveTied s ∧ Present s :=
  ⟨fun h => ⟨h.work, ⟨h.slowdown, h.starve_online⟩, ⟨h.pages_online, h.rows_exist⟩⟩,
    fun ⟨hwork, htied, hpresent⟩ =>
      ⟨hwork, htied.slowdown, htied.starve_online, hpresent.pages_online, hpresent.rows_exist⟩⟩

/-! ### The starve condition -/

section
variable {s t : State}

theorem StarveTied.of_shelf (ok : StarveTied s) (h : t.shelf = s.shelf) : StarveTied t where
  slowdown := by rw [slowdown_of_shelf h, starve_of_shelf h, ok.slowdown]
  starve_online := fun hs => (op_of_shelf h).trans (ok.starve_online (starve_of_shelf h ▸ hs))

theorem starveTied_evaluateStarve (ok : StarveTied s) : StarveTied (evaluateStarve s) := by
  unfold evaluateStarve
  split
  · rename_i hholds
    split
    · exact ok
    · exact ⟨rfl, fun _ => (starveHolds_iff.mp hholds).1⟩
  · split
    · exact ⟨rfl, fun h => nomatch h⟩
    · exact ok

theorem starveTied_judgeRetirement (ok : StarveTied s) (b : BarId) : StarveTied (judgeRetirement b s) := by
  rw [judgeRetirement_eq]
  split
  · exact { ok with }
  · exact starveTied_evaluateStarve { ok with }

theorem starveTied_judgeRetirements (ok : StarveTied s) (bs : List BarId) : StarveTied (judgeRetirements bs s) := by
  induction bs generalizing s with
  | nil => exact ok
  | cons b bs ih => exact ih (starveTied_judgeRetirement ok b)

theorem starveTied_refreshCursors (ok : StarveTied s) : StarveTied (refreshCursors s) := { ok with }

theorem starveTied_storePageEnd (ok : StarveTied s) (bars : Vector Bool 4) : StarveTied (storePageEnd bars s) :=
  starveTied_evaluateStarve (starveTied_refreshCursors (starveTied_judgeRetirements ok _))

theorem starveTied_takeStripe (ok : StarveTied s) (b : BarId) (page index : Nat) :
    StarveTied (takeStripe b page index s) := by
  unfold takeStripe
  split
  · exact starveTied_evaluateStarve { ok with }
  · exact ok

theorem StoreStep.tied (h : StoreStep s t) (ok : StarveTied s) : StarveTied t := by
  induction h with
  | same h => exact ok.of_shelf h
  | starve s => exact starveTied_evaluateStarve ok
  | take b page index s => exact starveTied_takeStripe ok b page index
  | judge b s => exact starveTied_judgeRetirement ok b
  | start hp hopen T S => exact { ok with }
  | pageEnd hp hdone =>
    refine starveTied_storePageEnd (StarveTied.of_shelf ?_ hdone) _
    exact { ok with }
  | trans h k ih ik => exact ik (ih ok)

/-- An event at rows leaves the operating state. -/
theorem StoreStep.op (h : StoreStep s t) : t.control.op = s.control.op := by
  induction h with
  | same h => exact op_of_shelf h
  | starve s => rw [(rowEvent_evaluateStarve s).control]
  | take b page index s => rw [(rowEvent_takeStripe b page index s).control]
  | judge b s => rw [(rowEvent_judgeRetirement b s).control]
  | start hp hopen T S => rfl
  | pageEnd hp hdone => rw [(rowEvent_storePageEnd _ _).control]; exact (op_of_shelf hdone).trans rfl
  | trans h k ih ik => exact ik.trans ih

theorem Stocked.tied (h : Stocked s t) (ok : StarveTied s) : StarveTied t := by
  obtain ⟨us, hstep⟩ := h
  exact hstep.tied { ok with }

theorem Stocked.op (h : Stocked s t) : t.control.op = s.control.op := by
  obtain ⟨us, hstep⟩ := h
  exact hstep.op

theorem starveTied_teardown (hslow : s.store.slowdown = s.store.starve) : StarveTied (teardown s) := by
  rw [teardown_eq]
  refine ⟨?_, fun h => nomatch h⟩
  cases hs : s.store.starve with
  | true => simp
  | false => simpa [hs] using hslow

/-! ### The page queue and the row channels -/

theorem Present.congr (ok : Present s) (hop : t.control.op = s.control.op) (hpages : t.pages ≠ [] → s.pages ≠ [])
    (hrows : ∀ r : RowId, (t.row r).isSome = (s.row r).isSome) (hheads : t.geometry.heads = s.geometry.heads) :
    Present t where
  pages_online := fun h => hop.trans (ok.pages_online (hpages h))
  rows_exist := fun r => by rw [hrows, ok.rows_exist, hop, hheads]

theorem ne_nil_of_map {α β : Type} {f : α → β} {xs ys : List α} (h : xs.map f = ys.map f) (hx : xs ≠ []) : ys ≠ [] := by
  rintro rfl
  exact hx (List.map_eq_nil_iff.mp h)

theorem Present.of_schedule (ok : Present s) (hop : t.control.op = s.control.op) (h : t.schedule = s.schedule) :
    Present t :=
  ok.congr hop (ne_nil_of_map (congrArg Schedule.pages h)) (sameRows_of_schedule h).exists_iff
    (congrArg Schedule.heads h)

theorem Present.of_rowEvent (ok : Present s) (h : RowEvent s t) : Present t :=
  ok.congr (by rw [h.control]) (ne_nil_of_map h.opening) h.exists_iff h.heads

/-- Without row channels and pages, in SETUP and STARTING. -/
theorem present_of_empty (hpages : t.pages = []) (hrows : ∀ r, t.row r = none)
    (hop : t.control.op = .setup ∨ t.control.op = .starting) : Present t where
  pages_online := fun h => absurd hpages h
  rows_exist := fun r => by
    rw [hrows]
    rcases hop with hop | hop <;> simp [hop]

theorem OperatingOk.no_pages (h : OperatingOk s) (hop : s.control.op ≠ .online) : s.pages = [] :=
  by_contra fun hp => hop (h.pages_online hp)

theorem present_passOn (ok : Present s) (env : Outside) (c : Option TickClass) : Present (passOn env c s) := by
  unfold passOn
  split
  · split
    · unfold forwardTick
      dsimp only
      split
      · exact Present.of_rowEvent (s := s.updateMotion Motion.forwardTick) { ok with } (rowEvent_arriveAll _ _ _ _)
      · exact { ok with }
    · exact { ok with }
    · exact { ok with }
    · exact ok
  · exact ok

theorem present_judgeTrigger (ok : Present s) (env : Outside) : Present (judgeTrigger env s) := by
  unfold judgeTrigger
  dsimp only
  split
  · exact { ok with }
  · split
    · exact { ok with }
    · split
      · exact { ok with }
      · exact Present.of_rowEvent (s := s.updateMotion _) { ok with } (rowEvent_startPage env _ _ _ _)

theorem present_judgeAbortPage (ok : Present s) (ps : List Byte) (env : Outside) :
    Present (judgeAbortPage ps env s).1 := by
  unfold judgeAbortPage
  repeat' split
  on_goal 5 => rw [reply_fst]; exact ok.of_rowEvent (rowEvent_abortPage env _ s)
  all_goals exact ok

/-- Heads are defined in SETUP, where there are no row channels (R8, R76). -/
theorem present_judgeDefineHead (ok : Present s) (ps : List Byte) : Present (judgeDefineHead ps s).1 := by
  unfold judgeDefineHead
  split
  · exact ok
  · rename_i hop
    have hsetup : s.control.op = .setup := by simpa using hop
    have hset : ∀ (p : PortId) (h : Option Head) (keep : Bool), Present (setHead p h keep s) := fun p h keep =>
      ⟨ok.pages_online, fun r => (ok.rows_exist r).trans (by simp [setHead, hsetup])⟩
    split
    · exact ok
    · split
      · exact ok
      · exact ok
      · dsimp only [reply]
        split
        · exact hset _ _ _
        · exact hset _ _ _

theorem present_judgeSetMotion (ok : Present s) (ps : List Byte) : Present (judgeSetMotion ps s).1 := by
  unfold judgeSetMotion
  split
  · exact ok
  · split
    · exact ok
    · exact { ok with }

theorem present_takeRequest {judge : State → State × Answer} (ok : Present s)
    (hj : ∀ u, Present u → Present (judge u).1) (code : Byte) (ps : List Byte) :
    Present (takeRequest code ps judge s) :=
  takeRequest_keeps (P := Present) (fun _ _ h => { h with }) ok (fun _ => hj _ { ok with }) code ps

/-- Of the commands that leave the shelf as an event at rows does, none touches the page queue or the row channels in
another way. -/
theorem exec_present {c : Instr} (hc : restocks c = false) (ok : Present s) (h : exec c s = .next t) : Present t := by
  cases hr : reschedules c with
  | false => exact ok.of_schedule (exec_stocked hc h).op (schedule_exec hr h)
  | true =>
    cases c with
    | encoderChange a b env =>
      obtain rfl := Host.Outcome.next.inj h
      refine present_passOn ?_ env _
      exact { ok with }
    | triggerEdge level env =>
      obtain rfl := Host.Outcome.next.inj h
      split
      · refine present_judgeTrigger ?_ env
        exact { ok with }
      · exact { ok with }
    | defineHead ps =>
      obtain rfl := Host.Outcome.next.inj h
      exact present_takeRequest ok (fun _ ok => present_judgeDefineHead ok ps) _ ps
    | setMotion ps =>
      obtain rfl := Host.Outcome.next.inj h
      exact present_takeRequest ok (fun _ ok => present_judgeSetMotion ok ps) _ ps
    | abortPage ps env =>
      obtain rfl := Host.Outcome.next.inj h
      refine present_takeRequest ?_ (fun _ ok => present_judgeAbortPage ok ps env) _ ps
      exact { ok with }
    | powerOnReset | probeAnswer | goOffline | clear | drainComplete | openPage | releasePage => cases hc
    | _ => cases hr

end

end Sys2Proof.Machine
end

section
/-! PROOF. Every step keeps the operating state in agreement with the rest of the part (O10), continued: the request in
progress, and the commands that change the operating state. -/

namespace Sys2Proof.Machine

section
variable {s t : State}

/-! ### The request in progress -/

theorem workFits_congr (hop : t.control.op = s.control.op) (hbusy : t.link.busy = s.link.busy) :
    workFits t = workFits s := by
  simp only [workFits, hop, hbusy]

theorem workFits_link {l : Link} (hbusy : l.busy = s.link.busy) : workFits { s with link := l } = workFits s :=
  workFits_congr rfl hbusy

theorem workFits_idle (hbusy : t.link.busy = none) :
    workFits t = true ↔ t.control.op = .setup ∨ t.control.op = .online := by
  simp [workFits, hbusy]

theorem workFits_busy {w : Work} (hbusy : t.link.busy = some w) : workFits t = true ↔ w.fits t.control.op = true := by
  simp [workFits, hbusy]

/-- Work that lasts at no operating state but SETUP and ONLINE ends there. -/
theorem workFits_finishWork (st : Status) (fields : List Byte)
    (hop : s.control.op = .setup ∨ s.control.op = .online) : workFits (finishWork st fields s) = true :=
  (workFits_idle (finishWork_busy st fields s)).mpr hop

theorem workFits_settled {r : State × Answer} (hop : r.1.control.op = .setup ∨ r.1.control.op = .online)
    (hwork : ∀ w, r.2 = .working w → w.fits r.1.control.op = true ∨ ∃ p, w = .headStatus p) :
    workFits (settled r) = true := by
  obtain ⟨u, ⟨st, fields⟩ | w⟩ := r
  · exact workFits_finishWork st fields hop
  · refine (workFits_busy (t := settled (u, .working w)) (w := w) rfl).mpr ?_
    rcases hwork w rfl with h | ⟨p, rfl⟩
    · exact h
    · have hop' : (settled (u, .working (.headStatus p))).control.op = u.control.op := rfl
      simpa [Work.fits, hop'] using hop

/-- A request that leaves the operating state, and whose work fits it, keeps the request in progress in agreement. -/
theorem workFits_takeRequest {judge : State → State × Answer} (ok : workFits s = true)
    (hop : ∀ u, (judge u).1.control.op = u.control.op)
    (hwork : ∀ u w, (judge u).2 = .working w → w.fits u.control.op = true ∨ ∃ p, w = .headStatus p) (code : Byte)
    (ps : List Byte) : workFits (takeRequest code ps judge s) = true := by
  refine takeRequest_rule (P := fun u => workFits u = true) (fun l hl => ?_) (fun hbusy l hl => ?_) code ps
  · exact (workFits_link hl).trans ok
  · refine workFits_settled (by rw [hop]; exact (workFits_idle hbusy).mp ok) fun w hw => ?_
    rw [hop]
    exact hwork _ w hw

theorem workFits_takeRequest_kept {judge : State → State × Answer} (ok : workFits s = true)
    (hj : ∀ u, Kept u (judge u)) (code : Byte) (ps : List Byte) : workFits (takeRequest code ps judge s) = true :=
  workFits_takeRequest ok (fun u => op_of_shelf (hj u).shelf) (fun u => (hj u).work) code ps

theorem completeLoad_link (p : PortId) (h : LineHeader) (st : BriefStatus) (s : State) :
    (completeLoad p h st s).link = s.link := by
  have hbrief : (takeBrief p st s).link = s.link := (takeBrief_frame p st s).2.2.1
  unfold completeLoad
  dsimp only
  split
  · exact (faultPort_busy p _ _).trans hbrief
  · split
    · exact (faultPort_busy p _ _).trans hbrief
    · exact hbrief

theorem grantShift_link (p : PortId) (l : Letter) (rest : List Requester) (s : State) :
    (grantShift p l rest s).link = s.link := by
  unfold grantShift
  split <;> rfl

theorem passOn_link (env : Outside) (c : Option TickClass) (s : State) : (passOn env c s).link = s.link := by
  unfold passOn
  split
  · split
    · unfold forwardTick
      dsimp only
      split
      · exact (rowEvent_arriveAll _ _ _ _).link
      · rfl
    · rfl
    · rfl
    · rfl
  · rfl

theorem judgeTrigger_link (env : Outside) (s : State) : (judgeTrigger env s).link = s.link := by
  unfold judgeTrigger
  dsimp only
  split
  · rfl
  · split
    · rfl
    · split
      · rfl
      · exact (rowEvent_startPage env _ _ _ _).link

theorem judgeAbortPage_not_working (ps : List Byte) (env : Outside) (s : State) (w : Work) :
    (judgeAbortPage ps env s).2 ≠ .working w := by
  unfold judgeAbortPage
  repeat' split
  all_goals exact fun h => nomatch h

/-- A query is the request in progress in SETUP or ONLINE (R155). -/
theorem workFits_endQuery {p : PortId} (ok : workFits s = true) (hquery : querying s p = true)
    (answer : Option QueryReply) : workFits (endQuery p answer s) = true := by
  have hbusy : s.link.busy = some (.headStatus p) := by
    simp only [querying, Bool.and_eq_true, decide_eq_true_eq] at hquery
    exact hquery.2
  have hop : s.control.op = .setup ∨ s.control.op = .online := by
    simpa [Work.fits] using (workFits_busy hbusy).mp ok
  have hshelf := op_of_shelf (endQuery_shelf p answer s)
  exact (workFits_idle (finishWork_busy _ _ _)).mpr (hshelf.symm ▸ hop)

theorem workFits_sendRecoveryProbe {u : State} {p : PortId} (ok : workFits s = true) (hreset : resetting s p = true)
    (hop : u.control.op = s.control.op) : workFits (sendRecoveryProbe p u) = true := by
  have hbusy : s.link.busy = some (.clearFault p .reset) := by
    simp only [resetting, Bool.and_eq_true, decide_eq_true_eq] at hreset
    exact hreset.2
  refine (workFits_busy (t := sendRecoveryProbe p u) (w := .clearFault p .probe) rfl).mpr ?_
  have hfits := (workFits_busy hbusy).mp ok
  change Work.fits _ u.control.op = true
  rw [hop]
  exact hfits

/-- Of the commands that leave the operating state as it stands, none puts the request in progress out of agreement. -/
theorem exec_workFits {c : Instr} (hc : restocks c = false) (ok : workFits s = true) (h : exec c s = .next t) :
    workFits t = true := by
  have hop := (exec_stocked hc h).op
  cases c with
  | powerOnReset | goOnline | probeAnswer | probeTimeout | goOffline | clear | drainComplete | openPage | releasePage
  | setRingSizes | setStarveThreshold | stripePiece => cases hc
  | encoderChange a b env =>
    obtain rfl := Host.Outcome.next.inj h
    exact (workFits_congr hop (congrArg Link.busy (passOn_link env _ _))).trans ok
  | triggerEdge level env =>
    obtain rfl := Host.Outcome.next.inj h
    refine (workFits_congr hop (congrArg Link.busy (?_ : _ = s.link))).trans ok
    split
    · exact judgeTrigger_link env _
    · rfl
  | assemblyEnd port rowA rowB env =>
    obtain rfl := Host.Outcome.next.inj h
    refine (workFits_congr hop (congrArg Link.busy (?_ : _ = s.link))).trans ok
    have hA : (if rowA then endAssembly env.query (rowOf port .A) (upset env.upsets s)
        else upset env.upsets s).link = s.link := by
      split
      · exact (endAssembly_link _ _ _).1
      · rfl
    split
    · exact (endAssembly_link _ _ _).1.trans hA
    · exact hA
  | linkGrant port =>
    obtain rfl := Host.Outcome.next.inj h
    refine (workFits_congr hop (congrArg Link.busy (?_ : _ = s.link))).trans ok
    split
    · exact grantShift_link _ _ _ s
    · rfl
    · rfl
  | loadCompletion port st =>
    obtain rfl := Host.Outcome.next.inj h
    refine (workFits_congr hop (congrArg Link.busy (?_ : _ = s.link))).trans ok
    split
    · exact completeLoad_link _ _ _ s
    · rfl
  | loadNoAnswer port =>
    obtain rfl := Host.Outcome.next.inj h
    refine (workFits_congr hop (congrArg Link.busy (?_ : _ = s.link))).trans ok
    split
    · exact faultPort_busy port _ s
    · rfl
  | lateAnswer port answer =>
    obtain rfl := Host.Outcome.next.inj h
    exact ok
  | playCompletion row =>
    obtain rfl := Host.Outcome.next.inj h
    exact ok
  | badFrame kind length rest =>
    obtain rfl := Host.Outcome.next.inj h
    split
    · exact ok
    · split
      · exact rejectFrame_rule (P := fun u => workFits u = true) (fun l hl => (workFits_link hl).trans ok) _ _
      · exact ok
      · exact ok
  | frameTimeout =>
    obtain rfl := Host.Outcome.next.inj h
    exact ok
  | unknownRequest code ps =>
    obtain rfl := Host.Outcome.next.inj h
    split
    · exact ok
    · exact workFits_takeRequest_kept ok (fun _ => kept_done _ _ rfl) code ps
  | replySent =>
    obtain rfl := Host.Outcome.next.inj h
    refine (workFits_congr hop ?_).trans ok
    split
    · exact (beginSending_busy _).trans (advanceSwitch_busy _)
    · rfl
  | trialRevert =>
    obtain rfl := Host.Outcome.next.inj h
    refine (workFits_congr hop ?_).trans ok
    split <;> rfl
  | startMark kind =>
    obtain rfl := Host.Outcome.next.inj h
    refine (workFits_congr hop ?_).trans ok
    split <;> rfl
  | abortPage ps env =>
    obtain rfl := Host.Outcome.next.inj h
    exact workFits_takeRequest (s := upset env.upsets s) ok (fun u => (storeStep_judgeAbortPage ps env u).op)
      (fun u w hw => absurd hw (judgeAbortPage_not_working ps env u w)) _ ps
  | stripeChecksum ps env =>
    obtain rfl := Host.Outcome.next.inj h
    exact workFits_takeRequest_kept (s := upset env.upsets s) ok (kept_judgeStripeChecksum ps env.fetched) _ ps
  | checksumReadbackEnd us =>
    obtain rfl := Host.Outcome.next.inj h
    split
    · rename_i rb hbusy
      have honline : s.control.op = .online := by simpa [Work.fits] using (workFits_busy hbusy).mp ok
      exact workFits_finishWork _ _ (.inr ((op_of_shelf (readbackWords_shelf _ _ _)).trans honline))
    · exact ok
  | queryAnswer port answer =>
    obtain rfl := Host.Outcome.next.inj h
    split
    · exact workFits_endQuery ok ‹_› _
    · exact ok
  | queryNoAnswer port =>
    obtain rfl := Host.Outcome.next.inj h
    split
    · exact workFits_endQuery ok ‹_› _
    · exact ok
  | resetAnswer port st =>
    obtain rfl := Host.Outcome.next.inj h
    split
    · exact workFits_sendRecoveryProbe ok ‹_› (op_of_shelf (takeBrief_shelf port st s))
    · exact ok
  | resetTimeout port =>
    obtain rfl := Host.Outcome.next.inj h
    split
    · exact workFits_sendRecoveryProbe ok ‹_› rfl
    · exact ok
  | setLinkRate ps =>
    obtain rfl := Host.Outcome.next.inj h
    exact workFits_takeRequest_kept ok (kept_judgeSetLinkRate ps) _ ps
  | sync ps =>
    obtain rfl := Host.Outcome.next.inj h
    exact workFits_takeRequest_kept ok (kept_judgeSync ps) _ ps
  | loadStitchMask ps =>
    obtain rfl := Host.Outcome.next.inj h
    exact workFits_takeRequest_kept ok (kept_judgeLoadStitchMask ps) _ ps
  | loadDefectList ps =>
    obtain rfl := Host.Outcome.next.inj h
    exact workFits_takeRequest_kept ok (kept_judgeLoadDefectList ps) _ ps
  | readPosition ps =>
    obtain rfl := Host.Outcome.next.inj h
    exact workFits_takeRequest_kept ok (kept_judgeReadPosition ps) _ ps
  | pageStatus ps =>
    obtain rfl := Host.Outcome.next.inj h
    exact workFits_takeRequest_kept ok (kept_judgePageStatus ps) _ ps
  | readMemoryErrors ps =>
    obtain rfl := Host.Outcome.next.inj h
    exact workFits_takeRequest_kept ok (kept_judgeReadMemoryErrors ps) _ ps
  | loadWaveform ps =>
    obtain rfl := Host.Outcome.next.inj h
    exact workFits_takeRequest_kept ok (kept_judgeLoadWaveform ps) _ ps
  | setDriveScale ps =>
    obtain rfl := Host.Outcome.next.inj h
    exact workFits_takeRequest_kept ok (kept_judgeSetDriveScale ps) _ ps
  | setGuard ps =>
    obtain rfl := Host.Outcome.next.inj h
    exact workFits_takeRequest_kept ok (kept_judgeSetGuard ps) _ ps
  | releaseGuard ps =>
    obtain rfl := Host.Outcome.next.inj h
    exact workFits_takeRequest_kept ok (kept_judgeReleaseGuard ps) _ ps
  | readGuard ps =>
    obtain rfl := Host.Outcome.next.inj h
    exact workFits_takeRequest_kept ok (kept_judgeReadGuard ps) _ ps
  | fetchReport ps =>
    obtain rfl := Host.Outcome.next.inj h
    exact workFits_takeRequest_kept ok (kept_judgeFetchReport ps) _ ps
  | headStatus ps =>
    obtain rfl := Host.Outcome.next.inj h
    exact workFits_takeRequest_kept ok (kept_judgeHeadStatus ps) _ ps
  | clearHeadFault ps =>
    obtain rfl := Host.Outcome.next.inj h
    exact workFits_takeRequest_kept ok (kept_judgeClearHeadFault ps) _ ps
  | defineHead ps =>
    obtain rfl := Host.Outcome.next.inj h
    exact workFits_takeRequest_kept ok (kept_judgeDefineHead ps) _ ps
  | setMotion ps =>
    obtain rfl := Host.Outcome.next.inj h
    exact workFits_takeRequest_kept ok (kept_judgeSetMotion ps) _ ps

end

end Sys2Proof.Machine
end

section
/-! PROOF. Every step keeps the operating state in agreement with the rest of the part (O10), continued: the commands
that set the rings up, change the operating state, open or release a page, or bring a stripe piece. -/

namespace Sys2Proof.Machine

section
variable {s t u : State}

theorem operatingOk_of_parts (hwork : workFits t = true) (htied : StarveTied t) (hpresent : Present t) :
    OperatingOk t := operatingOk_iff.mpr ⟨hwork, htied, hpresent⟩

theorem OperatingOk.tied (h : OperatingOk s) : StarveTied s := (operatingOk_iff.mp h).2.1

theorem OperatingOk.present (h : OperatingOk s) : Present s := (operatingOk_iff.mp h).2.2

/-- Outside ONLINE the starve condition does not hold. -/
theorem OperatingOk.no_starve (h : OperatingOk s) (hop : s.control.op ≠ .online) : s.store.starve = false :=
  Bool.eq_false_iff.mpr fun hs => hop (h.starve_online hs)

theorem starveTied_of_false (hslow : t.store.slowdown = t.store.starve) (hstarve : t.store.starve = false) :
    StarveTied t := ⟨hslow, fun h => Bool.noConfusion (hstarve.symm.trans h)⟩

theorem operatingOk_link (h : OperatingOk s) {l : Link} (hbusy : l.busy = s.link.busy) :
    OperatingOk { s with link := l } :=
  { h with work := (workFits_link hbusy).trans h.work }

/-- The part where no request is in progress stands in SETUP or ONLINE. -/
theorem OperatingOk.idle_op (h : OperatingOk s) (hbusy : s.link.busy = none) :
    s.control.op = .setup ∨ s.control.op = .online := (workFits_idle hbusy).mp h.work

/-- A request is judged in SETUP or ONLINE, and its judgement is answered or its work begins (R149). -/
theorem operatingOk_takeRequest {judge : State → State × Answer} (ok : OperatingOk s)
    (hj : ∀ u, OperatingOk u → u.link.busy = none → OperatingOk (settled (judge u))) (code : Byte) (ps : List Byte) :
    OperatingOk (takeRequest code ps judge s) :=
  takeRequest_rule (fun _ hl => operatingOk_link ok hl)
    (fun hbusy _ hl => hj _ (operatingOk_link ok (hl.trans hbusy.symm)) hl) code ps

theorem operatingOk_settled_done (htied : StarveTied t) (hpresent : Present t)
    (hop : t.control.op = .setup ∨ t.control.op = .online) (st : Status) (fields : List Byte) :
    OperatingOk (settled (t, .done st fields)) :=
  operatingOk_of_parts (workFits_finishWork st fields hop) { htied with } { hpresent with }

theorem operatingOk_settled_working (htied : StarveTied t) (hpresent : Present t) {w : Work}
    (hw : w.fits t.control.op = true) : OperatingOk (settled (t, .working w)) :=
  operatingOk_of_parts ((workFits_busy (t := settled (t, .working w)) (w := w) rfl).mpr hw) { htied with }
    { hpresent with }

theorem operatingOk_settled_reply (ok : OperatingOk s) (hbusy : s.link.busy = none) (st : Status)
    (fields : List Byte) : OperatingOk (settled (s, .done st fields)) :=
  operatingOk_settled_done ok.tied ok.present (ok.idle_op hbusy) st fields

/-! ### Power-on reset, GO ONLINE and its probes -/

theorem operatingOk_powerOn (memory : Memory) (damage : List (Nat × Damage)) (a b g : Bool) :
    OperatingOk (State.powerOn memory damage a b g) :=
  operatingOk_of_parts rfl ⟨rfl, fun h => nomatch h⟩
    (present_of_empty rfl (fun r => entry_replicate none r) (.inl rfl))

/-- GO ONLINE is judged in SETUP, where there are no pages, no row channels and no starve condition (R157). -/
theorem operatingOk_judgeGoOnline (ok : OperatingOk s) (hbusy : s.link.busy = none) (ps : List Byte) :
    OperatingOk (settled (judgeGoOnline ps s)) := by
  unfold judgeGoOnline
  split
  · exact operatingOk_settled_reply ok hbusy _ _
  · rename_i hop
    have hsetup : s.control.op = .setup := by simpa using hop
    have hoff : s.control.op ≠ .online := by simp [hsetup]
    repeat' split
    on_goal 4 =>
      apply operatingOk_settled_working
      · exact starveTied_of_false ok.slowdown (ok.no_starve hoff)
      · exact present_of_empty (ok.no_pages hoff) (no_rows (s := s) ok (.inl hsetup)) (.inr rfl)
      · rfl
    all_goals exact operatingOk_settled_reply ok hbusy _ _

theorem operatingOk_goOnlineSuccess (ok : OperatingOk s) (hop : s.control.op = .starting) :
    OperatingOk (goOnlineSuccess s) := by
  have hoff : s.control.op ≠ .online := by simp [hop]
  refine operatingOk_of_parts (workFits_finishWork _ _ (.inr rfl))
    (starveTied_of_false ok.slowdown (ok.no_starve hoff))
    ⟨fun h => absurd (ok.no_pages hoff) h, fun r => ?_⟩
  change (entry (createdRows s.geometry) r).isSome = (true && (entry s.geometry.heads (portOf r)).isSome)
  cases h : (entry s.geometry.heads (portOf r)).isSome <;> simp [createdRows, h]

/-- What a probe's outcome does to the request that sent it leaves the operating state in agreement (R132, R135,
R158). -/
theorem operatingOk_endProbe (ok : OperatingOk s) {w : Work} (hbusy : s.link.busy = some w) (env : Outside)
    (p : PortId) (cause : Option FaultCause) (answer : Option BriefStatus) :
    OperatingOk (endProbe env p w cause answer s) := by
  have hfits := (workFits_busy hbusy).mp ok.work
  unfold endProbe
  split
  · have hop : s.control.op = .starting := by simpa [Work.fits] using hfits
    have hoff : s.control.op ≠ .online := by simp [hop]
    exact operatingOk_of_parts (workFits_finishWork _ _ (.inl rfl))
      (starveTied_of_false ok.slowdown (ok.no_starve hoff))
      (present_of_empty (ok.no_pages hoff) (no_rows (s := s) ok (.inr hop)) (.inl rfl))
  · have hop : s.control.op = .starting := by simpa [Work.fits] using hfits
    have hready : OperatingOk (s.updatePort p fun q => { q with state := .ready, cause := .none }) := { ok with }
    unfold goOnlineNext
    dsimp only
    split
    · exact operatingOk_goOnlineSuccess hready hop
    · rename_i q _ _
      refine operatingOk_of_parts ((workFits_busy (w := .goOnline q) rfl).mpr ?_) { ok.tied with } { ok.present with }
      simp [Work.fits, hop]
  · have hop : s.control.op = .online := by simpa [Work.fits] using hfits
    exact operatingOk_of_parts (workFits_finishWork _ _ (.inr hop)) { ok.tied with } { ok.present with }
  · rename_i st
    have hop : s.control.op = .online := by simpa [Work.fits] using hfits
    have hrows := rowEvent_recoverRows env.fetched (portRows env p)
      (s.updatePort p fun q => { q with state := .ready, cause := .none })
    have hpresent : Present (s.updatePort p fun q => { q with state := .ready, cause := .none }) :=
      { ok.present with }
    have hstep := storeStep_recovered env p st s
    exact operatingOk_of_parts ((workFits_idle (finishWork_busy _ _ _)).mpr (.inr (hstep.op.trans hop)))
      (hstep.tied ok.tied) { hpresent.of_rowEvent hrows with }
  · exact ok

theorem operatingOk_upset (ok : OperatingOk s) (us : List Upset) : OperatingOk (upset us s) := { ok with }

theorem operatingOk_freed (ok : OperatingOk s) (p : PortId) (st : BriefStatus) :
    OperatingOk (freeLink p (takeBrief p st s)) := by
  obtain ⟨-, -, hlink, -, -⟩ := takeBrief_frame p st s
  have hshelf := takeBrief_shelf p st s
  have hop := op_of_shelf hshelf
  exact operatingOk_of_parts ((workFits_congr hop (congrArg Link.busy hlink)).trans ok.work)
    { ok.tied.of_shelf hshelf with } { ok.present.of_schedule hop (schedule_takeBrief p st s) with }

/-! ### GO OFFLINE, CLEAR and the end of DRAINING -/

/-- The teardown leaves no page, no starve condition, and every row channel (R97, R159). -/
theorem operatingOk_beginDraining (ok : OperatingOk s) (hop : s.control.op = .online) (clear : Bool) :
    OperatingOk (settled (beginDraining clear s)) := by
  have hteardown : (teardown (s.withOp .draining)).control.op = .draining := by rw [teardown_eq]; rfl
  have hgeometry : (teardown (s.withOp .draining)).geometry.heads = s.geometry.heads := by rw [teardown_eq]; rfl
  have hpages : (teardown (s.withOp .draining)).pages = [] := by rw [teardown_eq]
  refine operatingOk_settled_working (t := teardown (s.withOp .draining)) (starveTied_teardown ok.slowdown)
    ⟨fun h => absurd hpages h, fun r => ?_⟩ ?_
  · rw [teardown_row, hteardown, hgeometry, Option.isSome_map]
    exact (ok.rows_exist r).trans (by simp [hop])
  · rw [hteardown]
    rfl

theorem operatingOk_judgeGoOffline (ok : OperatingOk s) (hbusy : s.link.busy = none) (ps : List Byte) :
    OperatingOk (settled (judgeGoOffline ps s)) := by
  unfold judgeGoOffline
  split
  · exact operatingOk_settled_reply ok hbusy _ _
  · rename_i hop
    split
    · exact operatingOk_settled_reply ok hbusy _ _
    · exact operatingOk_beginDraining ok (by simpa using hop) false

theorem operatingOk_judgeClear (ok : OperatingOk s) (hbusy : s.link.busy = none) (ps : List Byte) :
    OperatingOk (settled (judgeClear ps s)) := by
  unfold judgeClear
  split
  · exact operatingOk_settled_reply ok hbusy _ _
  · split
    · exact operatingOk_settled_reply ok hbusy _ _
    · split
      · exact operatingOk_beginDraining ok ‹_› true
      · exact operatingOk_settled_done (t := clearRecords s) { ok.tied with } { ok.present with } (ok.idle_op hbusy) _ _

theorem operatingOk_enterSetup (ok : OperatingOk s) (hop : s.control.op = .draining) (clear : Bool) (count : Nat) :
    OperatingOk (enterSetup clear count s) := by
  have hoff : s.control.op ≠ .online := by simp [hop]
  have hstarve : s.store.starve = true → False := by simp [ok.no_starve hoff]
  have hrows : ∀ r : RowId, (enterSetup clear count s).row r = none := fun r => by
    cases clear <;> exact entry_replicate none r
  have hpages : (enterSetup clear count s).pages = [] := by cases clear <;> exact ok.no_pages hoff
  have hsetup : (enterSetup clear count s).control.op = .setup := by cases clear <;> rfl
  refine operatingOk_of_parts ((workFits_idle (finishWork_busy _ _ _)).mpr (.inl hsetup)) ?_
    (present_of_empty hpages hrows (.inl hsetup))
  cases clear <;> exact ⟨ok.slowdown, fun h => (hstarve h).elim⟩

/-! ### Pages, ring sizes and the starve threshold -/

theorem operatingOk_judgeOpenPage (ok : OperatingOk s) (hbusy : s.link.busy = none) (ps : List Byte) :
    OperatingOk (settled (judgeOpenPage ps s)) := by
  unfold judgeOpenPage
  split
  · exact operatingOk_settled_reply ok hbusy _ _
  · rename_i hop
    have honline : s.control.op = .online := by simpa using hop
    repeat' split
    on_goal 3 =>
      apply operatingOk_settled_done
      · exact starveTied_refreshCursors { ok.tied with }
      · exact ⟨fun _ => honline, ok.rows_exist⟩
      · exact .inr honline
    all_goals exact operatingOk_settled_reply ok hbusy _ _

theorem operatingOk_judgeReleasePage (ok : OperatingOk s) (hbusy : s.link.busy = none) (ps : List Byte) :
    OperatingOk (settled (judgeReleasePage ps s)) := by
  unfold judgeReleasePage
  split
  · exact operatingOk_settled_reply ok hbusy _ _
  · rename_i hop
    have honline : s.control.op = .online := by simpa using hop
    repeat' split
    on_goal 4 =>
      exact operatingOk_settled_done (t := removePage _ s) (starveTied_refreshCursors { ok.tied with })
        ⟨fun _ => honline, ok.rows_exist⟩ (.inr honline) _ _
    all_goals exact operatingOk_settled_reply ok hbusy _ _

theorem operatingOk_judgeSetRingSizes (ok : OperatingOk s) (hbusy : s.link.busy = none) (ps : List Byte) :
    OperatingOk (settled (judgeSetRingSizes ps s)) := by
  unfold judgeSetRingSizes
  repeat' split
  on_goal 3 =>
    apply operatingOk_settled_done
    · exact { ok.tied with }
    · exact { ok.present with }
    · exact ok.idle_op hbusy
  all_goals exact operatingOk_settled_reply ok hbusy _ _

theorem operatingOk_judgeSetStarveThreshold (ok : OperatingOk s) (hbusy : s.link.busy = none) (ps : List Byte) :
    OperatingOk (settled (judgeSetStarveThreshold ps s)) := by
  unfold judgeSetStarveThreshold
  split
  · exact operatingOk_settled_reply ok hbusy _ _
  · split
    · exact operatingOk_settled_reply ok hbusy _ _
    · rename_i b _
      have hset : ∀ n, OperatingOk (s.updateBar b fun bs => { bs with threshold := n }) := fun _ => { ok with }
      refine operatingOk_settled_done (starveTied_evaluateStarve (hset _).tied)
        ((hset _).present.of_rowEvent (rowEvent_evaluateStarve _)) ?_ _ _
      rw [(rowEvent_evaluateStarve _).control]
      exact ok.idle_op hbusy

/-! ### Stripe pieces -/

/-- Writing rows touches the bytes of image memory and their check bits alone. -/
theorem writeRows_eq (slot width place n : Nat) (data : List Byte) (st : Store) :
    writeRows slot width place n data st =
      { st with
        memory := (writeRows slot width place n data st).memory
        damage := (writeRows slot width place n data st).damage } := by
  induction n generalizing place data st with
  | zero => rfl
  | succ n ih => exact (ih _ _ _).trans rfl

theorem starveTied_storeRows (ok : StarveTied s) (b : BarId) (pc : Piece) : StarveTied (storeRows b pc s) := by
  unfold storeRows
  split
  · exact ok
  · dsimp only
    rw [writeRows_eq]
    exact { ok with }

theorem starveTied_storePiece (ok : StarveTied s) (b : BarId) (pc : Piece) (R : Nat) :
    StarveTied (storePiece b pc R s).1 := by
  have hopen : StarveTied (if pc.firstRow = 0 then openStripe b pc R s else s) := by
    split
    · exact { ok with }
    · exact ok
  have hstore := starveTied_storeRows hopen b pc
  unfold storePiece
  dsimp only
  generalize storeRows b pc (if pc.firstRow = 0 then openStripe b pc R s else s) = u at hstore
  split
  · split
    · exact starveTied_evaluateStarve (starveTied_refreshCursors { hstore with })
    · exact starveTied_refreshCursors { hstore with }
  · exact starveTied_refreshCursors hstore

/-- A stripe piece is answered at once. -/
theorem operatingOk_judgeStripePiece (ok : OperatingOk s) (hbusy : s.link.busy = none) (body : List Byte) :
    OperatingOk (settled (judgeStripePiece body s)) := by
  have hpresent := ok.present.of_schedule (congrArg Seats.op (quiet_judgeStripePiece body s).seats)
    (quiet_judgeStripePiece body s).schedule
  have hop : (judgeStripePiece body s).1.control.op = s.control.op :=
    congrArg Seats.op (quiet_judgeStripePiece body s).seats
  have htied : StarveTied (judgeStripePiece body s).1 := by
    unfold judgeStripePiece
    dsimp only
    repeat' split
    on_goal 10 => exact starveTied_storePiece ok.tied _ _ _
    all_goals exact ok.tied
  have hdone : ∃ st fields, (judgeStripePiece body s).2 = .done st fields := by
    unfold judgeStripePiece
    dsimp only
    repeat' split
    all_goals exact ⟨_, _, rfl⟩
  obtain ⟨st, fields, hdone⟩ := hdone
  generalize judgeStripePiece body s = r at *
  obtain ⟨u, answer⟩ := r
  obtain rfl : answer = .done st fields := hdone
  exact operatingOk_settled_done htied hpresent (hop ▸ ok.idle_op hbusy) st fields

/-! ### Every command -/

theorem exec_operatingOk {c : Instr} (ok : OperatingOk s) (h : exec c s = .next t) : OperatingOk t := by
  cases hc : restocks c with
  | false =>
    exact operatingOk_of_parts (exec_workFits hc ok.work h) ((exec_stocked hc h).tied ok.tied)
      (exec_present hc ok.present h)
  | true =>
    cases c with
    | powerOnReset a b g =>
      obtain rfl := Host.Outcome.next.inj h
      exact { operatingOk_powerOn s.store.memory s.store.damage a b g with }
    | goOnline ps =>
      obtain rfl := Host.Outcome.next.inj h
      exact operatingOk_takeRequest ok (fun _ ok hb => operatingOk_judgeGoOnline ok hb ps) _ ps
    | probeAnswer port st env =>
      obtain rfl := Host.Outcome.next.inj h
      have hupset := operatingOk_upset ok env.upsets
      split
      · rename_i w hw
        split
        · obtain ⟨-, -, hlink, -, -⟩ := takeBrief_frame port st (upset env.upsets s)
          refine operatingOk_endProbe (operatingOk_freed hupset port st) ?_ env port _ _
          exact (congrArg Link.busy hlink).trans (probing_cases hw).2.1
        · exact hupset
      · exact hupset
    | probeTimeout port =>
      obtain rfl := Host.Outcome.next.inj h
      split
      · rename_i w hw
        exact operatingOk_endProbe (s := freeLink port s) { ok with } (probing_cases hw).2.1 _ port _ _
      · exact ok
    | goOffline ps =>
      obtain rfl := Host.Outcome.next.inj h
      exact operatingOk_takeRequest ok (fun _ ok hb => operatingOk_judgeGoOffline ok hb ps) _ ps
    | clear ps =>
      obtain rfl := Host.Outcome.next.inj h
      exact operatingOk_takeRequest ok (fun _ ok hb => operatingOk_judgeClear ok hb ps) _ ps
    | drainComplete =>
      obtain rfl := Host.Outcome.next.inj h
      split
      · rename_i clear count hbusy
        split
        · have hop : s.control.op = .draining := by simpa [Work.fits] using (workFits_busy hbusy).mp ok.work
          exact operatingOk_enterSetup ok hop clear count
        · exact ok
      · exact ok
    | openPage ps =>
      obtain rfl := Host.Outcome.next.inj h
      exact operatingOk_takeRequest ok (fun _ ok hb => operatingOk_judgeOpenPage ok hb ps) _ ps
    | releasePage ps =>
      obtain rfl := Host.Outcome.next.inj h
      exact operatingOk_takeRequest ok (fun _ ok hb => operatingOk_judgeReleasePage ok hb ps) _ ps
    | setRingSizes ps =>
      obtain rfl := Host.Outcome.next.inj h
      exact operatingOk_takeRequest ok (fun _ ok hb => operatingOk_judgeSetRingSizes ok hb ps) _ ps
    | setStarveThreshold ps =>
      obtain rfl := Host.Outcome.next.inj h
      exact operatingOk_takeRequest ok (fun _ ok hb => operatingOk_judgeSetStarveThreshold ok hb ps) _ ps
    | stripePiece body =>
      obtain rfl := Host.Outcome.next.inj h
      exact takeData_rule (fun _ hl => operatingOk_link ok hl)
        (fun hbusy _ hl => operatingOk_judgeStripePiece (operatingOk_link ok (hl.trans hbusy.symm)) hl body) body
    | _ => cases hc

/-- Settles O10. -/
theorem stepsKeepOperatingOk : Obligations.StepsKeepOperatingOk := fun _ _ ok h =>
  step_keeps (P := OperatingOk) (fun _ _ ok => { ok with }) (fun _ _ _ ok h => exec_operatingOk ok h) ok h

end

end Sys2Proof.Machine
end

section
/-! PROOF. Reading a word of image memory (R70 to R72), SET RING SIZES (R53, R54) and SET STARVE THRESHOLD with the
two edges of the starve condition (R67 to R69): O57, O39 and O40. -/

namespace Sys2Proof.Machine

/-! ### A word of image memory -/

theorem noteUncorrectable_eq (k : ReadKey) (place word : Nat) (s : State) :
    noteUncorrectable k place word s = { s with
      store := { s.store with
        uncorrected := bump Config.top16 s.store.uncorrected
        capture := if s.store.capture = none then
            some { source := k.source, bar := k.bar, slot := k.slot, page := k.page, stripe := k.stripe,
                   place := place, word := word }
          else s.store.capture }
      pages := changePage k.page (fun p => { p with flags := { p.flags with memory := true } }) s.pages
      reports :=
        { queue := postTo s.motion.pos .memoryError (.source k.source) s.reports.queue, attention := true } } := by
  rw [noteUncorrectable, post_eq]
  cases hc : s.store.capture <;> rfl

/-- Settles O57: the three findings of the check bits, each as `readWord` takes it. -/
theorem wordsReadUnderCheckBits : Obligations.WordsReadUnderCheckBits := by
  unfold Obligations.WordsReadUnderCheckBits
  intro k place word s bytes found
  refine ⟨fun h => ?_, fun h => ?_, fun h => ?_⟩ <;> simp only [found] at h <;> simp only [readWord, h]
  · rfl
  · rfl
  · rw [noteUncorrectable_eq]
    rfl

/-! ### SET RING SIZES -/

/-- The block that gives bar b the b-th of four capacities. -/
def sizesBlock (sizes : Vector Nat 4) : List Byte := (allBars.map fun b => leBytes 2 (entry sizes b)).flatten

@[simp] theorem sizesBlock_length (sizes : Vector Nat 4) : (sizesBlock sizes).length = 8 := by
  simp [sizesBlock, allBars]

theorem sizeField_sizesBlock {sizes : Vector Nat 4} {b : BarId} (h : entry sizes b < 65536) :
    sizeField (sizesBlock sizes) b = entry sizes b := by
  have hsplit : allBars = allBars.take b.val ++ b :: allBars.drop (b.val + 1) ∧
      (allBars.take b.val).length = b.val := by
    clear h
    revert b
    decide
  have hblock : sizesBlock sizes =
      ((allBars.take b.val).map fun x => leBytes 2 (entry sizes x)).flatten ++ leBytes 2 (entry sizes b) ++
        ((allBars.drop (b.val + 1)).map fun x => leBytes 2 (entry sizes x)).flatten := by
    rw [sizesBlock]
    conv => lhs; rw [hsplit.1]
    simp
  have hlen : (((allBars.take b.val).map fun x => leBytes 2 (entry sizes x)).flatten).length = 2 * b.val := by
    rw [List.length_flatten, List.map_map, show (List.length ∘ fun x => leBytes 2 (entry sizes x)) = fun _ => 2 from
      funext fun x => leBytes_length 2 _, List.map_const', List.sum_replicate, hsplit.2, smul_eq_mul, mul_comm]
  rw [sizeField, hblock, ← hlen]
  exact fieldAt_append _ _ 2 _ h

theorem entry_le_of_sum {sizes : Vector Nat 4} {n : Nat}
    (h : entry sizes 0 + entry sizes 1 + entry sizes 2 + entry sizes 3 ≤ n) (b : BarId) : entry sizes b ≤ n := by
  fin_cases b <;> simp only [Fin.zero_eta, Fin.mk_one, Fin.reduceFinMk] <;> omega

section
variable {sizes : Vector Nat 4} (h : entry sizes 0 + entry sizes 1 + entry sizes 2 + entry sizes 3 ≤ 1024)
include h

theorem sizeField_of_sum : sizeField (sizesBlock sizes) = entry sizes := by
  funext b
  exact sizeField_sizesBlock (by have := entry_le_of_sum h b; omega)

/-- Capacities of 1024 slots at most in all pass every check of R54. -/
theorem sizesFailure_sizesBlock : sizesFailure (sizesBlock sizes) = none := by
  have hany : (allBars.any fun b => decide (1024 < sizeField (sizesBlock sizes) b)) = false := by
    simpa [sizeField_of_sum h] using fun b _ => entry_le_of_sum h b
  have hsum : ¬ 1024 < (allBars.map (sizeField (sizesBlock sizes))).sum := by
    simp only [sizeField_of_sum h, allBars, List.map_cons, List.map_nil, List.sum_cons, List.sum_nil]
    omega
  rw [sizesFailure, if_neg (by simp), hany, if_neg hsum]
  rfl

end

/-- The bars, each with its run of slots, emptied (R53, R54). -/
def runBars (sizes : Vector Nat 4) (s : State) : Vector BarStore 4 :=
  Vector.ofFn fun b => { s.bar b with
    capacity := entry sizes b
    nextSlot := if entry sizes b = 0 then none
      else some ((allBars.filter fun x => x < b).map fun x => entry sizes x).sum
    ring := []
    ahead := 0
    threshold := min (s.bar b).threshold (entry sizes b) }

theorem resizedBars_eq {ps : List Byte} {sizes : Vector Nat 4} (h : sizeField ps = entry sizes) (s : State) :
    resizedBars ps s.store.bars = runBars sizes s := by
  simp only [resizedBars, runBars, resizeBar, entry_ofFn, h, emptyNextSlot, firstSlot]
  rfl

theorem sizesFields_runBars (sizes : Vector Nat 4) (s : State) :
    sizesFields (runBars sizes s) = (allBars.map fun b => leBytes 2 (entry sizes b) ++
      leBytes 2 (if entry sizes b = 0 then 0 else ((allBars.filter fun x => x < b).map fun x => entry sizes x).sum) ++
      leBytes 2 (min (s.bar b).threshold (entry sizes b))).flatten := by
  simp only [sizesFields, runBars, emptyNextSlot, firstSlot, entry_ofFn]
  congr 1
  refine List.map_congr_left fun b _ => ?_
  split <;> rfl

/-- Settles O39: the block's four fields are the capacities, and the bars made of them are those that R53 gives. -/
theorem ringSizesAccepted : Obligations.RingSizesAccepted := by
  unfold Obligations.RingSizesAccepted
  intro sizes s htakes hsetup hsum first
  have hop : ¬ (admitted 0x60 s).control.op ≠ .setup := by simpa using hsetup
  have hbars : resizedBars (sizesBlock sizes) (admitted 0x60 s).store.bars = runBars sizes s :=
    resizedBars_eq (sizeField_of_sum hsum) s
  have htaken := takeRequest_taken htakes (params := sizesBlock sizes) (by simp) 0x60
    (judgeSetRingSizes (sizesBlock sizes))
  simp only [judgeSetRingSizes, if_neg hop, sizesFailure_sizesBlock hsum, hbars, sizesFields_runBars] at htaken
  exact congrArg Host.Outcome.next (htaken.trans
    (settled_done (t := { s with store := { s.store with bars := runBars sizes s } }) htakes rfl 0x60 .ok _))

/-! ### The two edges of the starve condition (R68, R69) -/

theorem starveHolds_eq_false_iff {s : State} :
    starveHolds s = false ↔ s.control.op ≠ .online ∨ ∀ x, ¬ BarAtRisk s x := by
  rw [Bool.eq_false_iff, ne_eq, starveHolds_iff, not_and_or, not_exists]

theorem lowestAtRisk_eq {s : State} {x : BarId} (hx : BarAtRisk s x) (hlow : ∀ y, y < x → ¬ BarAtRisk s y) :
    lowestAtRisk s = some x :=
  allBars_find (atRisk_iff.mpr hx) fun y hy => Bool.eq_false_iff.mpr fun h => hlow y hy (atRisk_iff.mp h)

theorem evaluateStarve_enters {s : State} {x : BarId} (hop : s.control.op = .online) (hs : s.store.starve = false)
    (hx : BarAtRisk s x) (hlow : ∀ y, y < x → ¬ BarAtRisk s y) :
    evaluateStarve s = { s with
      store := { s.store with starve := true, slowdown := true }
      reports := { queue := postTo s.motion.pos .starve (.starve true (some x)) s.reports.queue,
                   attention := true } } := by
  rw [evaluateStarve, if_pos (starveHolds_iff.mpr ⟨hop, x, hx⟩), if_neg (by simp [hs]), enterStarve, post_eq,
    lowestAtRisk_eq hx hlow]

theorem evaluateStarve_leaves {s : State} (h : s.control.op ≠ .online ∨ ∀ x, ¬ BarAtRisk s x)
    (hs : s.store.starve = true) :
    evaluateStarve s = { s with
      store := { s.store with starve := false, slowdown := false }
      reports := { queue := postTo s.motion.pos .starve (.starve false none) s.reports.queue,
                   attention := true } } := by
  rw [evaluateStarve, starveHolds_eq_false_iff.mpr h, if_neg (by simp), if_pos hs, leaveStarve, post_eq]

theorem evaluateStarve_stays {s : State} (h : s.store.starve = starveHolds s) : evaluateStarve s = s := by
  rw [evaluateStarve, h]
  split <;> rfl

theorem evaluateStarve_link (l : Link) (s : State) :
    evaluateStarve { s with link := l } = { evaluateStarve s with link := l } := by
  rw [evaluateStarve, evaluateStarve, show starveHolds { s with link := l } = starveHolds s from rfl]
  split <;> split <;> rfl

/-- The bar and the threshold of a block of SET STARVE THRESHOLD. -/
theorem thresholdBlock_fields (b : BarId) {n : Nat} (hn : n < 65536) :
    toBar (fieldAt (leBytes 1 b.val ++ leBytes 2 n) 0 1) = some b ∧
      fieldAt (leBytes 1 b.val ++ leBytes 2 n) 1 2 = n := by
  have hb : b.val < 256 ^ 1 := by omega
  have h0 := fieldAt_append [] (leBytes 2 n) 1 b.val hb
  have h1 := fieldAt_append (leBytes 1 b.val) [] 2 n (by omega)
  simp only [List.nil_append, List.length_nil, leBytes_length, List.append_nil] at h0 h1
  rw [h0, h1, toBar, dif_pos b.isLt]
  exact ⟨rfl, rfl⟩

/-- SET STARVE THRESHOLD holds the threshold and evaluates the starve condition. -/
theorem exec_setStarveThreshold {s : State} (h : Takes .request s) (b : BarId) {n : Nat} (hn : n < 65536) :
    exec (.setStarveThreshold (leBytes 1 b.val ++ leBytes 2 n)) s =
      .next (answered 0x61 .ok (leBytes 1 b.val ++ leBytes 2 (min n (s.bar b).capacity))
        (evaluateStarve (s.updateBar b fun bs => { bs with threshold := min n (s.bar b).capacity }))) := by
  obtain ⟨hbar, hfield⟩ := thresholdBlock_fields b hn
  have hlen : ¬ (leBytes 1 b.val ++ leBytes 2 n).length ≠ 3 := by simp
  have hjudge : judgeSetStarveThreshold (leBytes 1 b.val ++ leBytes 2 n) (admitted 0x61 s) =
      ({ evaluateStarve (s.updateBar b fun bs => { bs with threshold := min n (s.bar b).capacity }) with
          link := (admitted 0x61 s).link },
        .done .ok (leBytes 1 b.val ++ leBytes 2 (min n (s.bar b).capacity))) := by
    rw [← evaluateStarve_link, judgeSetStarveThreshold, if_neg hlen, hbar, hfield]
    rfl
  refine congrArg Host.Outcome.next ((takeRequest_taken h (by simp) 0x61 _).trans ?_)
  rw [hjudge]
  exact settled_done h (rowEvent_evaluateStarve (s.updateBar b _)).link 0x61 .ok _

/-- Settles O40: the command is the evaluation of the starve condition, and its four cases are the condition's edges. -/
theorem starveThresholdEvaluated : Obligations.StarveThresholdEvaluated := by
  unfold Obligations.StarveThresholdEvaluated
  intro b n s htakes hn _ held set reply c
  have hexec : exec c s = reply (evaluateStarve set) := exec_setStarveThreshold htakes b hn
  rw [hexec]
  refine ⟨fun x hop hs hx hlow => ?_, fun h hs => ?_, fun h hs => ?_, fun h hs => ?_⟩
  · exact congrArg reply (evaluateStarve_enters (s := set) hop hs hx hlow)
  · exact congrArg reply (evaluateStarve_leaves (s := set) h hs)
  · exact congrArg reply (evaluateStarve_stays (s := set) (hs.trans (starveHolds_iff.mpr h).symm))
  · exact congrArg reply (evaluateStarve_stays (s := set) (hs.trans (starveHolds_eq_false_iff.mpr h).symm))

end Sys2Proof.Machine
end

section
/-! PROOF. STRIPE CHECKSUM (R74): the record found and its readback (O43). The words of a row place, read one after
another, sum to the bytes of the row. -/

namespace Sys2Proof.Machine

/-! ### What a readback leaves -/

/-- Nothing but the Stripe Store, the records of the pages and the reports differs. -/
def ReadsOnly (s t : State) : Prop := t = { s with store := t.store, pages := t.pages, reports := t.reports }

theorem ReadsOnly.trans {s t u : State} (h : ReadsOnly s t) (k : ReadsOnly t u) : ReadsOnly s u := by
  rw [ReadsOnly] at h k ⊢
  rw [k, h]

theorem readsOnly_readWord (k : ReadKey) (place word : Nat) (s : State) : ReadsOnly s (readWord k place word s).2 := by
  unfold readWord
  split <;> rfl

theorem readsOnly_readbackWords (n : Nat) (rb : Readback) (s : State) : ReadsOnly s (readbackWords n rb s).2 := by
  induction n generalizing rb s with
  | zero => rfl
  | succ n ih =>
    unfold readbackWords
    split
    · exact (readsOnly_readWord _ _ _ s).trans (ih _ _)
    · rfl

/-- A readback of n more words is the same readback, further on by as many as are left of them. -/
theorem readbackWords_fst (n : Nat) {rb : Readback} (h : rb.wordsRead ≤ rb.total) (s : State) : ∃ sum bad,
    (readbackWords n rb s).1 =
      { rb with wordsRead := min (rb.wordsRead + n) rb.total, sum := sum, bad := bad } := by
  induction n generalizing rb s with
  | zero => exact ⟨rb.sum, rb.bad, by rw [readbackWords, add_zero, min_eq_left h]⟩
  | succ n ih =>
    unfold readbackWords
    split
    next hlt =>
      obtain ⟨sum, bad, e⟩ := ih (rb := (readbackWord rb s).1) hlt (readbackWord rb s).2
      exact ⟨sum, bad, e.trans (by rw [← Nat.add_assoc, Nat.add_right_comm]; rfl)⟩
    next hend =>
      exact ⟨rb.sum, rb.bad, by rw [min_eq_right (by omega), show rb.total = rb.wordsRead by omega]⟩

/-! ### STRIPE CHECKSUM taken -/

/-- The block that names a bar, a page and a stripe. -/
def checksumBlock (b : BarId) (page index : Nat) : List Byte := leBytes 1 b.val ++ leBytes 2 page ++ leBytes 2 index

theorem checksumBlock_fields (b : BarId) {page index : Nat} (hp : page < 65536) (hi : index < 65536) :
    (checksumBlock b page index).length = 5 ∧ toBar (fieldAt (checksumBlock b page index) 0 1) = some b ∧
      fieldAt (checksumBlock b page index) 1 2 = page ∧ fieldAt (checksumBlock b page index) 3 2 = index := by
  have h0 := fieldAt_append [] (leBytes 2 page ++ leBytes 2 index) 1 b.val (by omega)
  have h1 := fieldAt_append (leBytes 1 b.val) (leBytes 2 index) 2 page (by omega)
  have h3 := fieldAt_append (leBytes 1 b.val ++ leBytes 2 page) [] 2 index (by omega)
  simp only [List.nil_append, List.length_nil, List.length_append, leBytes_length, List.append_nil,
    ← List.append_assoc] at h0 h1 h3
  refine ⟨by simp [checksumBlock], ?_, h1, h3⟩
  rw [checksumBlock, h0, toBar, dif_pos b.isLt]

section
variable {b : BarId} {page index : Nat} {env : Outside} {s : State} (h : Takes .request s)
  (hop : s.control.op = .online) (hp : page < 65536) (hi : index < 65536)
include h hop hp hi

/-- The judgement of STRIPE CHECKSUM, its block well formed, is what it finds. -/
theorem exec_stripeChecksum : exec (.stripeChecksum (checksumBlock b page index) env) s =
    .next (settled (match findComplete (s.bar b).ring page index with
      | none => (admitted 0x62 (upset env.upsets s), .done .notFound [])
      | some st =>
        let r := readbackWords env.fetched (startReadback s.geometry b st) (admitted 0x62 (upset env.upsets s))
        (r.2, .working (.checksum r.1)))) := by
  obtain ⟨hlen, hbar, hpage, hindex⟩ := checksumBlock_fields b hp hi
  have hon : ¬ (admitted 0x62 (upset env.upsets s)).control.op ≠ .online := by simpa using hop
  have htaken := takeRequest_taken (s := upset env.upsets s) h (params := checksumBlock b page index)
    (by rw [hlen]; omega) 0x62 (judgeStripeChecksum (checksumBlock b page index) env.fetched)
  refine congrArg Host.Outcome.next (htaken.trans (congrArg settled ?_))
  rw [judgeStripeChecksum, if_neg hon, if_neg (by simpa using hlen), hbar]
  simp only [hpage, hindex]
  rfl

end

/-! ### The sum of a row place -/

theorem byteSum_append (xs ys : List Byte) : Frame.byteSum (xs ++ ys) = Frame.byteSum xs + Frame.byteSum ys := by
  induction xs with
  | nil => simp [Frame.byteSum]
  | cons x xs ih => simp only [List.cons_append, Frame.byteSum, ih, add_assoc]

theorem readRun_add (m : Memory) (a i j : Nat) :
    Memory.readRun m a (i + j) = Memory.readRun m a i ++ Memory.readRun m (a + i) j := by
  induction i generalizing a with
  | zero => simp [Memory.readRun]
  | succ i ih => rw [Nat.add_right_comm, Memory.readRun, ih, Memory.readRun, List.cons_append, Nat.add_right_comm a 1 i,
      Nat.add_assoc a i 1]

theorem readRun_take (m : Memory) (a n k : Nat) : (Memory.readRun m a n).take k = Memory.readRun m a (min k n) := by
  induction n generalizing a k with
  | zero => simp [Memory.readRun]
  | succ n ih =>
    cases k with
    | zero => simp [Memory.readRun]
    | succ k => rw [Memory.readRun, List.take_succ_cons, ih, Nat.succ_min_succ, Memory.readRun]

/-- The words of a run of bytes, the last one cut at the run's end, sum to the run. -/
theorem words_sum (m : Memory) (a bytes n : Nat) :
    ((List.range n).map fun w =>
      Frame.byteSum ((Memory.readRun m (a + 8 * w) 8).take (bytes - 8 * w))).sum =
      Frame.byteSum (Memory.readRun m a (min (8 * n) bytes)) := by
  induction n with
  | zero => simp [Memory.readRun, Frame.byteSum]
  | succ n ih =>
    rw [List.range_succ, List.map_append, List.sum_append, ih, List.map_singleton, List.sum_singleton, readRun_take,
      ← byteSum_append]
    by_cases h : 8 * n ≤ bytes
    · rw [min_eq_left h, ← readRun_add]
      congr 2
      omega
    · rw [show min (bytes - 8 * n) 8 = 0 by omega, Memory.readRun, List.append_nil]
      congr 2
      omega

/-- What the n-th word of a slot's rows, each of this many bytes, adds to the sum of a readback. -/
def wordSum (m : Memory) (slot bytes n : Nat) : Nat :=
  Frame.byteSum ((Memory.readRun m (byteAddress slot (n / rowWords bytes) (8 * (n % rowWords bytes))) 8).take
    (bytes - 8 * (n % rowWords bytes)))

theorem readbackWord_undamaged {s : State} (h : s.store.damage = []) (rb : Readback) :
    readbackWord rb s = ({ rb with
      wordsRead := rb.wordsRead + 1
      sum := (rb.sum + wordSum s.store.memory rb.slot rb.rowBytes rb.wordsRead) % 65536 }, s) := by
  simp [readbackWord, readWord, h, damageOf, wordSum]

theorem readbackWords_undamaged {s : State} (h : s.store.damage = []) (n : Nat) {rb : Readback}
    (hn : rb.wordsRead + n ≤ rb.total) (hsum : rb.sum < 65536) :
    readbackWords n rb s = ({ rb with
      wordsRead := rb.wordsRead + n
      sum := (rb.sum +
        ((List.range n).map fun i => wordSum s.store.memory rb.slot rb.rowBytes (rb.wordsRead + i)).sum) % 65536 },
      s) := by
  induction n generalizing rb with
  | zero => simp [readbackWords, Nat.mod_eq_of_lt hsum]
  | succ n ih =>
    rw [readbackWords, if_pos (by omega), readbackWord_undamaged h,
      ih (by simp only [Readback.total] at hn ⊢; omega) (Nat.mod_lt _ (by omega))]
    simp only [List.range_succ_eq_map, List.map_cons, List.map_map, List.sum_cons, Nat.mod_add_mod, add_assoc]
    congr 3
    · omega
    · congr 4
      funext i
      rw [Function.comp_apply, Nat.succ_eq_add_one, Nat.add_comm i 1]

/-- The words of a slot's rows, each of this many bytes, sum to the rows. -/
theorem rows_sum (m : Memory) (slot rows : Nat) {bytes : Nat} (h : bytes ≤ 1024) :
    ((List.range (rows * rowWords bytes)).map (wordSum m slot bytes)).sum =
      ((List.range rows).map fun r => Frame.byteSum (Memory.readRun m (byteAddress slot r 0) bytes)).sum := by
  induction rows with
  | zero => simp
  | succ rows ih =>
    have hrow : ((List.range (rowWords bytes)).map fun w => wordSum m slot bytes (rows * rowWords bytes + w)) =
        (List.range (rowWords bytes)).map fun w =>
          Frame.byteSum ((Memory.readRun m (byteAddress slot rows 0 + 8 * w) 8).take (bytes - 8 * w)) := by
      refine List.map_congr_left fun w hw => ?_
      have hw : w < rowWords bytes := List.mem_range.mp hw
      have hdiv : (rows * rowWords bytes + w) / rowWords bytes = rows := by
        rw [Nat.mul_comm, Nat.mul_add_div (by omega), Nat.div_eq_of_lt hw, add_zero]
      have hmod : (rows * rowWords bytes + w) % rowWords bytes = w := by
        rw [Nat.mul_comm, Nat.mul_add_mod, Nat.mod_eq_of_lt hw]
      have haddress : byteAddress slot rows (8 * w) = byteAddress slot rows 0 + 8 * w := by
        simp only [rowWords] at hw
        simp only [byteAddress]
        omega
      rw [wordSum, hdiv, hmod, haddress]
    rw [Nat.succ_mul, List.range_add, List.map_append, List.sum_append, ih, List.map_map, List.range_succ,
      List.map_append, List.sum_append, List.map_singleton, List.sum_singleton]
    congr 1
    refine (congrArg List.sum hrow).trans ((words_sum m _ bytes _).trans ?_)
    rw [min_eq_right (by simp only [rowWords]; omega)]

/-- Settles O43: the judgement on the record found; and the words read to the end, which sum to the rows. -/
theorem checksumReadsBack : Obligations.ChecksumReadsBack := by
  unfold Obligations.ChecksumReadsBack
  constructor
  · intro b page index env s htakes hop hp hi c found
    have hexec := exec_stripeChecksum (b := b) (env := env) htakes hop hp hi
    have hfound : findComplete (s.bar b).ring page index = (s.bar b).ring.find? found := rfl
    rw [hfound] at hexec
    refine ⟨fun hnone => ?_, fun st hsome => ?_⟩
    · simp only [hnone] at hexec
      exact hexec.trans (congrArg Host.Outcome.next (settled_reply (s := upset env.upsets s) htakes 0x62 .notFound []))
    · simp only [hsome] at hexec
      have hreads := readsOnly_readbackWords env.fetched (startReadback s.geometry b st)
        (admitted 0x62 (upset env.upsets s))
      have hevent := rowEvent_readbackWords env.fetched (startReadback s.geometry b st)
        (admitted 0x62 (upset env.upsets s))
      have hbars := readbackWords_bars env.fetched (startReadback s.geometry b st)
        (admitted 0x62 (upset env.upsets s))
      obtain ⟨sum, bad, hrb⟩ := readbackWords_fst env.fetched (rb := startReadback s.geometry b st) (Nat.zero_le _)
        (admitted 0x62 (upset env.upsets s))
      generalize readbackWords env.fetched _ _ = r at hexec hreads hevent hbars hrb
      obtain ⟨rb, u⟩ := r
      replace hrb : rb = _ := hrb
      rw [ReadsOnly] at hreads
      refine ⟨_, rb, hexec, ?_, ?_, ?_, ?_⟩
      · rw [hreads]
        rfl
      · rw [hrb]
        rfl
      · rw [hrb]
        exact congrArg (min · _) (zero_add _)
      · rw [hreads]
        exact ⟨rfl, rfl, rfl, rfl, rfl, rfl, rfl, hbars, hevent.memory⟩
  · intro rb s hbusy hread hsum hbad _ hbytes hdamage
    have hwords := readbackWords_undamaged hdamage rb.total (rb := rb) (by omega) (by omega)
    rw [hread, hsum, show rb.total = rb.rows * rowWords rb.rowBytes from rfl] at hwords
    simp only [zero_add, rows_sum s.store.memory rb.slot rb.rows hbytes] at hwords
    simp only [exec, execChecksumReadbackEnd, hbusy]
    refine congrArg Host.Outcome.next ?_
    change endReadback rb s = _
    rw [endReadback, hread, Nat.sub_zero, show rb.total = rb.rows * rowWords rb.rowBytes from rfl, hwords]
    simp only [checksumFields, hbad]
    rfl

end Sys2Proof.Machine
end

section
/-! PROOF. A stripe piece that passes every check (R57 to R59): the rows it writes, the record it opens or goes on
filling (O41). -/

namespace Sys2Proof.Machine

/-! ### The rows written (R52, R59) -/

/-- Rows of this width were written to the places of a slot from the first on, with fresh check bits, and nothing else
was (R52). -/
structure RowsWritten (slot width first count : Nat) (data : List Byte) (s t : Store) : Prop where
  bytes : ∀ i j, i < count → j < width →
    Memory.read t.memory (byteAddress slot (first + i) j) = data.getD (i * width + j) 0
  other_bytes : ∀ a, (∀ i j, i < count → j < 8 * ((width + 7) / 8) → a ≠ byteAddress slot (first + i) j) →
    Memory.read t.memory a = Memory.read s.memory a
  words : ∀ i w, i < count → w < (width + 7) / 8 → damageOf t.damage (wordAddress slot (first + i) w) = none
  other_words : ∀ a, (∀ i w, i < count → w < (width + 7) / 8 → a ≠ wordAddress slot (first + i) w) →
    damageOf t.damage a = damageOf s.damage a

theorem padToWord_length (vs : List Byte) : (padToWord vs).length = 8 * ((vs.length + 7) / 8) := by
  simp only [padToWord, List.length_append, List.length_replicate]
  omega

theorem byteAddress_eq {slot place byte : Nat} (hp : place < 64) (hb : byte < 1024) :
    byteAddress slot place byte = slot % 1024 * 65536 + place * 1024 + byte := by
  rw [byteAddress, Nat.mod_eq_of_lt hp, Nat.mod_eq_of_lt hb]

theorem wordAddress_eq {slot place word : Nat} (hp : place < 64) (hw : word < 128) :
    wordAddress slot place word = slot % 1024 * 8192 + place * 128 + word := by
  rw [wordAddress, Nat.mod_eq_of_lt hp, Nat.mod_eq_of_lt hw]

section
variable {slot place : Nat} {vs : List Byte} (hplace : place < 64) (hvs : vs.length ≤ 1024) (st : Store)
include hplace hvs

theorem read_writeRow_same {j : Nat} (hj : j < vs.length) :
    Memory.read (writeRow slot place vs st).memory (byteAddress slot place j) = vs.getD j 0 := by
  have hpad : j < (padToWord vs).length := by rw [padToWord_length]; omega
  have hread := Memory.read_writeRun_inside st.memory (byteAddress slot place 0) (padToWord vs) j hpad
  rw [byteAddress_eq hplace (by omega), add_zero] at hread
  rw [byteAddress_eq hplace (by omega)]
  refine (congrArg (Memory.read · _) ?_).trans (hread.trans ?_)
  · rw [writeRow, byteAddress_eq hplace (by omega), add_zero]
  · simp [padToWord, List.getElem_append_left hj, hj]

theorem read_writeRow_of_ne {a : Nat} (ha : ∀ j, j < 8 * ((vs.length + 7) / 8) → a ≠ byteAddress slot place j) :
    Memory.read (writeRow slot place vs st).memory a = Memory.read st.memory a := by
  refine Memory.read_writeRun_outside _ _ _ _ ?_
  rw [padToWord_length, byteAddress_eq hplace (by omega), add_zero]
  by_contra hin
  refine ha (a - (slot % 1024 * 65536 + place * 1024)) (by omega) ?_
  rw [byteAddress_eq hplace (by omega)]
  omega

theorem damageOf_writeRow_same {w : Nat} (hw : w < (vs.length + 7) / 8) :
    damageOf (writeRow slot place vs st).damage (wordAddress slot place w) = none := by
  refine (damageOf_clearDamage _ _ _ _).trans (if_pos ?_)
  rw [wordAddress_eq hplace (by omega), wordAddress_eq hplace (by omega)]
  omega

theorem damageOf_writeRow_of_ne {a : Nat} (ha : ∀ w, w < (vs.length + 7) / 8 → a ≠ wordAddress slot place w) :
    damageOf (writeRow slot place vs st).damage a = damageOf st.damage a := by
  refine (damageOf_clearDamage _ _ _ _).trans (if_neg ?_)
  rw [wordAddress_eq hplace (by omega)]
  intro hin
  refine ha (a - (slot % 1024 * 8192 + place * 128)) (by omega) ?_
  rw [wordAddress_eq hplace (by omega)]
  omega

end

/-- Rows written one after another lie at their places, and nothing else is touched. -/
theorem writeRows_written (slot : Nat) {width : Nat} (hwidth : width ≤ 1024) {first n : Nat}
    (hplaces : first + n ≤ 64) {data : List Byte} (hdata : data.length = n * width) (st : Store) :
    RowsWritten slot width first n data st (writeRows slot width first n data st) := by
  induction n generalizing first data st with
  | zero => exact ⟨by simp, fun _ _ => rfl, by simp, fun _ _ => rfl⟩
  | succ n ih =>
    rw [Nat.succ_mul] at hdata
    have hlen : (data.take width).length = width := List.length_take_of_le (by omega)
    have hplace : first < 64 := by omega
    have hrow : (data.take width).length ≤ 1024 := by omega
    have rest := ih (first := first + 1) (by omega) (data := data.drop width) (by rw [List.length_drop]; omega)
      (writeRow slot first (data.take width) st)
    have hshift : ∀ i, first + (i + 1) = first + 1 + i := fun i => by omega
    refine ⟨fun i j hi hj => ?_, fun a ha => ?_, fun i w hi hw => ?_, fun a ha => ?_⟩
    · cases i with
      | zero =>
        refine (rest.other_bytes _ fun i' j' hi' hj' => ?_).trans
          ((read_writeRow_same hplace hrow st (by omega)).trans ?_)
        · rw [byteAddress_eq (by omega) (by omega), byteAddress_eq (by omega) (by omega)]
          omega
        · rw [zero_mul, zero_add, List.getD_eq_getElem?_getD, List.getD_eq_getElem?_getD, List.getElem?_take_of_lt hj]
      | succ i =>
        rw [hshift]
        refine (rest.bytes i j (by omega) hj).trans ?_
        rw [List.getD_eq_getElem?_getD, List.getD_eq_getElem?_getD, List.getElem?_drop, Nat.succ_mul]
        congr 2
        omega
    · refine (rest.other_bytes a fun i j hi hj => ?_).trans (read_writeRow_of_ne hplace hrow st fun j hj => ?_)
      · rw [← hshift]
        exact ha (i + 1) j (by omega) hj
      · rw [hlen] at hj
        exact ha 0 j (by omega) hj
    · cases i with
      | zero =>
        refine (rest.other_words _ fun i' w' hi' hw' => ?_).trans
          (damageOf_writeRow_same hplace hrow st (by rwa [hlen]))
        rw [wordAddress_eq (by omega) (by omega), wordAddress_eq (by omega) (by omega)]
        omega
      | succ i =>
        rw [hshift]
        exact rest.words i w (by omega) hw
    · refine (rest.other_words a fun i w hi hw => ?_).trans (damageOf_writeRow_of_ne hplace hrow st fun w hw => ?_)
      · rw [← hshift]
        exact ha (i + 1) w (by omega) hw
      · rw [hlen] at hw
        exact ha 0 w (by omega) hw

/-! ### The record that a piece fills (R55, R59) -/

/-- The record that a piece opens in a slot. -/
def freshStripe (pc : Piece) (R slot : Nat) : Stripe :=
  { page := pc.page, index := pc.index, rows := R, slot := slot, received := 0, state := .filling, sum := 0,
    taken := false, retired := false, released := false }

/-- A record with a piece's rows counted and their bytes summed. -/
def Stripe.plus (st : Stripe) (pc : Piece) : Stripe :=
  { st with received := st.received + pc.rowCount, sum := (st.sum + Frame.byteSum pc.data) % 65536 }

/-- The part with a piece's rows stored in a record at the tail of its bar's ring. -/
def pieceStored (b : BarId) (pc : Piece) (front : List Stripe) (st : Stripe) (next : Option Nat) (s : State) : State :=
  { s with store := { writeRows st.slot (rowBytes s.geometry b) pc.firstRow pc.rowCount pc.data s.store with
      bars := put s.store.bars b { s.bar b with ring := front ++ [st.plus pc], nextSlot := next } } }

section
variable {front : List Stripe} (hfront : ∀ y ∈ front, y.state = .complete)
include hfront

theorem filling_at_tail {st : Stripe} (hst : st.state = .filling) {bs : BarStore} (hring : bs.ring = front ++ [st]) :
    bs.filling = some st := by
  have hnone : front.find? (fun x => decide (x.state = .filling)) = none := by
    simpa using fun y hy => by simp [hfront y hy]
  rw [BarStore.filling, hring, List.find?_append, hnone]
  simp [hst]

theorem filling_none_of_complete {bs : BarStore} (hring : bs.ring = front) : bs.filling = none := by
  rw [BarStore.filling, hring]
  simpa using fun y hy => by simp [hfront y hy]

theorem changeFilling_at_tail {st : Stripe} (hst : st.state = .filling) (f : Stripe → Stripe) :
    changeFilling f (front ++ [st]) = front ++ [f st] := by
  have hkeep : changeFilling f front = front :=
    (List.map_congr_left fun y hy => if_neg (by simp [hfront y hy])).trans (List.map_id front)
  rw [changeFilling, List.map_append, List.map_singleton, if_pos hst]
  exact congrArg (· ++ [f st]) hkeep

theorem filter_filling_at_tail {st : Stripe} (hst : st.state = .filling) :
    ((front ++ [st]).filter fun x => decide (x.state ≠ .filling)) = front := by
  rw [List.filter_append, List.filter_eq_self.mpr fun y hy => by simp [hfront y hy]]
  simp [hst]

theorem storeRows_tail {b : BarId} {s : State} {st : Stripe} (hst : st.state = .filling)
    (hring : (s.bar b).ring = front ++ [st]) (pc : Piece) :
    storeRows b pc s = pieceStored b pc front st (s.bar b).nextSlot s := by
  rw [storeRows, filling_at_tail hfront hst hring]
  simp only [State.updateBar, pieceStored, writeRows_bars]
  rw [show (entry s.store.bars b).ring = front ++ [st] from hring, changeFilling_at_tail hfront hst]
  rfl

end

theorem writeRows_with_bars (slot width place n : Nat) (data : List Byte) (st : Store) (bars : Vector BarStore 4) :
    writeRows slot width place n data { st with bars := bars } =
      { writeRows slot width place n data st with bars := bars } := by
  induction n generalizing place data st with
  | zero => rfl
  | succ n ih => exact ih _ _ (writeRow slot place (data.take width) st)

/-- The record and the next slot of the bar's ring aside, a change of the bar stays. -/
theorem pieceStored_updateBar (b : BarId) (pc : Piece) (front : List Stripe) (st : Stripe) (next : Option Nat)
    (s : State) (f : BarStore → BarStore) :
    pieceStored b pc front st next (s.updateBar b f) =
      { s with store := { writeRows st.slot (rowBytes s.geometry b) pc.firstRow pc.rowCount pc.data s.store with
          bars := put s.store.bars b { f (s.bar b) with ring := front ++ [st.plus pc], nextSlot := next } } } := by
  simp only [pieceStored, State.bar_updateBar_same]
  simp only [State.updateBar, writeRows_with_bars, put_put]

/-- A piece meets its bar's ring: it goes on with the FILLING record at the tail, or finds none and room for one. -/
structure MeetsRing (b : BarId) (pc : Piece) (front : List Stripe) (pre : Option Stripe) (s : State) : Prop where
  ring : (s.bar b).ring = front ++ pre.toList
  complete : ∀ y ∈ front, y.state = .complete
  opens : pre = none → pc.firstRow = 0 ∧ front.length < (s.bar b).capacity
  goes_on : ∀ x, pre = some x → x.state = .filling ∧ pc.firstRow ≠ 0

/-- The record a piece fills: the one at the tail, or a fresh one. -/
def filled (b : BarId) (pc : Piece) (R : Nat) (pre : Option Stripe) (s : State) : Stripe :=
  pre.getD (freshStripe pc R ((s.bar b).nextSlot.getD 0))

/-- The ring's next slot once the piece has opened a record or gone on with one. -/
def slotFollowing (b : BarId) (pre : Option Stripe) (s : State) : Option Nat :=
  if pre = none then (s.bar b).nextSlot.map (slotAfter (firstSlot s.store.bars b) (s.bar b).capacity)
  else (s.bar b).nextSlot

section
variable {b : BarId} {pc : Piece} {front : List Stripe} {pre : Option Stripe} {s : State}
  (h : MeetsRing b pc front pre s) (R : Nat)
include h

theorem MeetsRing.filled_filling : (filled b pc R pre s).state = .filling := by
  cases pre with
  | none => rfl
  | some x => exact (h.goes_on x rfl).1

/-- A piece's rows are stored in the record it opens or goes on with. -/
theorem MeetsRing.storeRows_eq :
    storeRows b pc (if pc.firstRow = 0 then openStripe b pc R s else s) =
      pieceStored b pc front (filled b pc R pre s) (slotFollowing b pre s) s := by
  cases pre with
  | none =>
    rw [if_pos (h.opens rfl).1]
    refine (storeRows_tail h.complete (st := filled b pc R none s) rfl ?_ pc).trans ?_
    · rw [openStripe, State.bar_updateBar_same, h.ring]
      simp [filled, freshStripe]
    · rw [openStripe, pieceStored_updateBar, State.bar_updateBar_same]
      rfl
  | some x =>
    obtain ⟨hx, hrow⟩ := h.goes_on x rfl
    rw [if_neg hrow]
    exact storeRows_tail h.complete hx h.ring pc

end

theorem RowsWritten.congr {slot width first count : Nat} {data : List Byte} {s t u : Store}
    (h : RowsWritten slot width first count data s t) (hm : u.memory = t.memory) (hd : u.damage = t.damage) :
    RowsWritten slot width first count data s u := by
  obtain ⟨hbytes, hother, hwords, hothers⟩ := h
  rw [← hm] at hbytes hother
  rw [← hd] at hwords hothers
  exact ⟨hbytes, hother, hwords, hothers⟩

theorem pieceStored_bar (b x : BarId) (pc : Piece) (front : List Stripe) (st : Stripe) (next : Option Nat)
    (s : State) : (pieceStored b pc front st next s).bar x =
      if b = x then { s.bar b with ring := front ++ [st.plus pc], nextSlot := next } else s.bar x := by
  rw [State.bar, pieceStored, entry_put]
  rfl

theorem readsOnly_evaluateStarve (s : State) : ReadsOnly s (evaluateStarve s) := by
  unfold evaluateStarve
  split <;> split <;> rfl

theorem readsOnly_storeRows (b : BarId) (pc : Piece) (s : State) : ReadsOnly s (storeRows b pc s) := by
  unfold storeRows
  split <;> rfl

theorem readsOnly_updateBar (s : State) (b : BarId) (f : BarStore → BarStore) : ReadsOnly s (s.updateBar b f) := rfl

theorem readsOnly_updatePage (s : State) (id : Nat) (f : Page → Page) : ReadsOnly s (s.updatePage id f) := rfl

theorem readsOnly_refreshCursors (s : State) : ReadsOnly s (refreshCursors s) := rfl

theorem readsOnly_completeStripe (b : BarId) (pc : Piece) (s : State) : ReadsOnly s (completeStripe b pc s) := by
  unfold completeStripe
  exact (((readsOnly_updateBar s b _).trans (readsOnly_updatePage _ _ _)).trans (readsOnly_updateBar _ b _)).trans
    ((readsOnly_refreshCursors _).trans (readsOnly_evaluateStarve _))

theorem readsOnly_discardStripe (b : BarId) (s : State) : ReadsOnly s (discardStripe b s) :=
  (readsOnly_updateBar s b _).trans (readsOnly_refreshCursors _)

/-- Storing a piece leaves everything but the Stripe Store, the records of the pages and the reports. -/
theorem readsOnly_storePiece (b : BarId) (pc : Piece) (R : Nat) (s : State) :
    ReadsOnly s (storePiece b pc R s).1 := by
  have hopen : ReadsOnly s (if pc.firstRow = 0 then openStripe b pc R s else s) := by split <;> rfl
  have hrows : ReadsOnly s (storeRows b pc (if pc.firstRow = 0 then openStripe b pc R s else s)) :=
    hopen.trans (readsOnly_storeRows b pc _)
  rw [storePiece]
  generalize storeRows b pc (if pc.firstRow = 0 then openStripe b pc R s else s) = u at hrows
  split
  · split
    · exact hrows.trans (readsOnly_completeStripe b pc u)
    · exact hrows.trans (readsOnly_discardStripe b u)
  · exact hrows.trans (readsOnly_refreshCursors u)

/-! ### A piece that passes every check (R57, R58) -/

/-- A piece passes the checks of R57 and R58 that come before the ring's room. -/
structure PiecePasses (body : List Byte) (b : BarId) (p : Page) (s : State) : Prop where
  online : s.control.op = .online
  bar : (readPiece body).bar = b.val
  heads : hasHeads s.geometry b = true
  capacity : (s.bar b).capacity ≠ 0
  page : findPage s.pages (readPiece body).page = some p
  named : entry p.bars b = true
  cursor : (s.bar b).cursor =
    some { page := (readPiece body).page, index := (readPiece body).index, row := (readPiece body).firstRow }
  some_rows : 1 ≤ (readPiece body).rowCount
  few_rows : (readPiece body).rowCount ≤ 8
  length : body.length = 10 + (readPiece body).rowCount * rowBytes s.geometry b
  length_le : body.length ≤ 8202
  within : (readPiece body).firstRow + (readPiece body).rowCount ≤ min 64 (p.length - 64 * (readPiece body).index)
  final_iff : (readPiece body).final = true ↔
    (readPiece body).firstRow + (readPiece body).rowCount = min 64 (p.length - 64 * (readPiece body).index)

section
variable {body : List Byte} {b : BarId} {p : Page} {front : List Stripe} {pre : Option Stripe} {s : State}

theorem PiecePasses.judge (h : PiecePasses body b p s) (hring : MeetsRing b (readPiece body) front pre s) :
    let r := storePiece b (readPiece body) (min 64 (p.length - 64 * (readPiece body).index)) s
    judgeStripePiece body s = (r.1, .done r.2 (pieceFields b r.1)) := by
  have hbar : toBar (readPiece body).bar = some b := by rw [h.bar, toBar, dif_pos b.isLt]
  have hheads : ¬ (hasHeads s.geometry b = false ∨ (s.bar b).capacity = 0) := by simp [h.heads, h.capacity]
  have hcursor : ¬ atCursor (readPiece body) (s.bar b).cursor = false := by simp [atCursor, h.cursor]
  have hshape : ¬ badPieceShape (rowBytes s.geometry b) (stripeRows p.length (readPiece body).index)
      (readPiece body) = true := by
    have hone := h.some_rows
    have hlen : (readPiece body).length = 10 + (readPiece body).rowCount * rowBytes s.geometry b := h.length
    have hfew := h.few_rows
    have hwithin : (readPiece body).firstRow + (readPiece body).rowCount ≤
      stripeRows p.length (readPiece body).index := h.within
    simp only [badPieceShape, hlen, Bool.or_eq_true, decide_eq_true_eq]
    omega
  have hroom : ¬ ((readPiece body).firstRow = 0 ∧ (s.bar b).filling = none ∧ (s.bar b).free = 0) := by
    rintro ⟨hrow, -, hfree⟩
    cases pre with
    | none =>
      have hlt := (hring.opens rfl).2
      have hlen := congrArg List.length hring.ring
      simp only [Option.toList_none, List.append_nil] at hlen
      rw [BarStore.free] at hfree
      omega
    | some x => exact (hring.goes_on x rfl).2 hrow
  have hfinal : ¬ wrongFinal (stripeRows p.length (readPiece body).index) (readPiece body) = true := by
    have hwithin := h.within
    have hiff := h.final_iff
    rw [wrongFinal, stripeRows]
    split <;> simp_all
  rw [judgeStripePiece, if_neg (not_not.mpr h.online)]
  simp only [hbar, if_neg hheads, h.page, h.named, if_neg hcursor, if_neg hshape, if_neg hroom, if_neg hfinal]
  rfl

/-- A judgement of a taken frame that answers at once. -/
theorem settled_admitted {kind : FrameKind} {echo : Byte} {u : State} (h : Takes kind s)
    (hlink : u.link = (admitted echo s).link) (st : Status) (fields : List Byte) :
    settled (u, .done st fields) = answered echo st fields { u with link := s.link } := by
  refine Eq.trans ?_ (settled_done (t := { u with link := s.link }) h rfl echo st fields)
  rw [← hlink]

/-- A piece that passes every check is stored, and the reply is of what storing it gave. -/
theorem PiecePasses.exec (htakes : Takes .data s) (h : PiecePasses body b p s)
    (hring : MeetsRing b (readPiece body) front pre s) :
    let r := storePiece b (readPiece body) (min 64 (p.length - 64 * (readPiece body).index)) (admitted 0xFF s)
    exec (.stripePiece body) s = .next (answered 0xFF r.2 (pieceFields b r.1) { r.1 with link := s.link }) := by
  intro r
  have hjudge := PiecePasses.judge (s := admitted 0xFF s) (b := b) (p := p) (front := front) (pre := pre)
    { h with } { hring with }
  have htaken := takeData_taken htakes (by rw [h.length]; omega) h.length_le (judgeStripePiece body)
  rw [hjudge] at htaken
  refine congrArg Host.Outcome.next (htaken.trans (settled_admitted htakes ?_ _ _))
  rw [readsOnly_storePiece]

end

theorem refreshCursors_reports (s : State) : (refreshCursors s).reports = s.reports := rfl

/-- What storing a piece does alike, whether the stripe is then complete, discarded or goes on: the rows are written,
the other bars keep everything but their cursors, and the cursors are set anew. -/
structure PieceKept (b : BarId) (pc : Piece) (slot : Nat) (s t : State) : Prop where
  written : RowsWritten slot (rowBytes s.geometry b) pc.firstRow pc.rowCount pc.data s.store t.store
  threshold : (t.bar b).threshold = (s.bar b).threshold
  capacity : (t.bar b).capacity = (s.bar b).capacity
  cursors : ∀ x, (t.bar x).cursor = cursorOf t.pages (t.bar x) x
  others : ∀ x, x ≠ b → { t.bar x with cursor := none } = { s.bar x with cursor := none }
  reads : ReadsOnly s t

/-- The rows a piece writes, where its row places and its data are those that the checks let pass. -/
theorem PiecePasses.written {body : List Byte} {b : BarId} {p : Page} {s : State} (h : PiecePasses body b p s)
    (hwidth : rowBytes s.geometry b ≤ 1024) (front : List Stripe) (st : Stripe) (next : Option Nat) :
    RowsWritten st.slot (rowBytes s.geometry b) (readPiece body).firstRow (readPiece body).rowCount
      (readPiece body).data s.store (pieceStored b (readPiece body) front st next s).store := by
  have hwithin := h.within
  have hlength := h.length
  have hdata : (readPiece body).data.length = body.length - 10 := List.length_drop
  exact (writeRows_written st.slot hwidth (by omega) (by omega) s.store).congr rfl rfl

/-- A change of the bar that keeps its threshold and capacity, and a change of the pages, then the cursors set anew. -/
theorem pieceKept_refreshCursors {b : BarId} {pc : Piece} {slot : Nat} {s t u : State}
    (hwritten : RowsWritten slot (rowBytes s.geometry b) pc.firstRow pc.rowCount pc.data s.store t.store)
    (hthreshold : (u.bar b).threshold = (s.bar b).threshold) (hcapacity : (u.bar b).capacity = (s.bar b).capacity)
    (hothers : ∀ x, x ≠ b → u.bar x = s.bar x) (himage : u.image = t.image) (hreads : ReadsOnly s u) :
    PieceKept b pc slot s (refreshCursors u) where
  written := hwritten.congr (congrArg Prod.fst himage) (congrArg Prod.snd himage)
  threshold := by rw [refreshCursors_bar, hthreshold]
  capacity := by rw [refreshCursors_bar, hcapacity]
  cursors x := by
    rw [refreshCursors_bar]
    rfl
  others x hx := by rw [refreshCursors_bar, hothers x hx]
  reads := hreads.trans (readsOnly_refreshCursors u)

theorem PieceKept.evaluateStarve {b : BarId} {pc : Piece} {slot : Nat} {s t : State} (h : PieceKept b pc slot s t) :
    PieceKept b pc slot s (evaluateStarve t) := by
  have hbar : ∀ x, (Machine.evaluateStarve t).bar x = t.bar x := State.bar_congr (evaluateStarve_bars t)
  have himage := evaluateStarve_image t
  refine ⟨h.written.congr (congrArg Prod.fst himage) (congrArg Prod.snd himage), ?_, ?_, fun x => ?_, fun x hx => ?_,
    h.reads.trans (readsOnly_evaluateStarve t)⟩
  · rw [hbar, h.threshold]
  · rw [hbar, h.capacity]
  · rw [hbar, evaluateStarve_pages, h.cursors]
  · rw [hbar, h.others x hx]

/-- A stored piece's bytes are the body's. -/
theorem data_getD (body : List Byte) (i width j : Nat) :
    (readPiece body).data.getD (i * width + j) 0 = body.getD (10 + i * width + j) 0 := by
  rw [List.getD_eq_getElem?_getD, List.getD_eq_getElem?_getD, readPiece, List.getElem?_drop, add_assoc]

/-- A piece's outcome that goes on filling its stripe. -/
theorem MeetsRing.storePiece_going_on {b : BarId} {pc : Piece} {front : List Stripe} {pre : Option Stripe} {s : State}
    (h : MeetsRing b pc front pre s) (R : Nat) (hfinal : pc.final = false) :
    storePiece b pc R s =
      (refreshCursors (pieceStored b pc front (filled b pc R pre s) (slotFollowing b pre s) s), .ok) := by
  rw [storePiece, h.storeRows_eq, hfinal]
  rfl

/-- Settles O41: a piece that is not the last of its stripe leaves the part with its rows stored and the cursors set
anew. -/
theorem stripePieceStored : Obligations.StripePieceStored := by
  unfold Obligations.StripePieceStored
  intro body b p front pre s htakes pc width R first st hop hbar hheads hcapacity hwidth hpage hnamed hcursor hsome hfew
    hlength hbody hrows hfinal hring hfront hopens hgoes
  have hpasses : PiecePasses body b p s :=
    ⟨hop, hbar, hheads, hcapacity, hpage, hnamed, hcursor, hsome, hfew, hlength, hbody, hrows.le,
      by rw [hfinal]; simpa using hrows.ne⟩
  have hmeets : MeetsRing b pc front pre s := ⟨hring, hfront, hopens, hgoes⟩
  have hexec := hpasses.exec htakes hmeets
  rw [MeetsRing.storePiece_going_on (s := admitted 0xFF s) { hmeets with } _ hfinal] at hexec
  have hbars := fun x => pieceStored_bar b x pc front st (slotFollowing b pre s) (admitted 0xFF s)
  have hb := (refreshCursors_bar b (pieceStored b pc front st (slotFollowing b pre s) (admitted 0xFF s))).trans
    (by rw [hbars b, if_pos rfl])
  have hkept : PieceKept b pc st.slot (admitted 0xFF s)
      (refreshCursors (pieceStored b pc front st (slotFollowing b pre s) (admitted 0xFF s))) :=
    pieceKept_refreshCursors (PiecePasses.written (s := admitted 0xFF s) { hpasses with } hwidth _ _ _)
      (by rw [hbars b, if_pos rfl]) (by rw [hbars b, if_pos rfl]) (fun x hx => by rw [hbars x, if_neg (Ne.symm hx)])
      rfl rfl
  have hpages := refreshCursors_pages (pieceStored b pc front st (slotFollowing b pre s) (admitted 0xFF s))
  have hreports := refreshCursors_reports (pieceStored b pc front st (slotFollowing b pre s) (admitted 0xFF s))
  generalize hu : refreshCursors (pieceStored b pc front st (slotFollowing b pre s) (admitted 0xFF s)) = u
    at hb hkept hpages hreports
  replace hexec : exec (.stripePiece body) s =
    .next (answered 0xFF .ok (pieceFields b u) { u with link := s.link }) := by rw [← hu]; exact hexec
  clear hu hbars
  have hring : (u.bar b).ring = front ++ [st.plus pc] := by rw [hb]
  have hnext : (u.bar b).nextSlot = slotFollowing b pre s := by rw [hb]
  have hahead : (u.bar b).ahead = (s.bar b).ahead := by rw [hb]; rfl
  have hreads := hkept.reads
  rw [ReadsOnly] at hreads
  refine ⟨_, hexec, fun i j hi hj => ?_, hkept.written.other_bytes, hkept.written.words, hkept.written.other_words,
    hring, hnext, hahead, hkept.threshold, hkept.capacity, fun x => ⟨hkept.cursors x, hkept.others x⟩, rfl, hpages,
    ?_, ?_, ?_, ?_, ?_, ?_, hreports, ?_⟩
  · exact (hkept.written.bytes i j hi hj).trans (data_getD body i width j)
  all_goals
    rw [hreads]
    rfl

end Sys2Proof.Machine
end

section
/-! PROOF. The final piece of a stripe (R59 to R61): the stripe complete, retired where it is passed, or
discarded (O42). -/

namespace Sys2Proof.Machine

/-! ### The starve condition, evaluated on the way (R68, R69) -/

theorem barAtRisk_evaluateStarve {s : State} {x : BarId} : BarAtRisk (evaluateStarve s) x ↔ BarAtRisk s x := by
  rw [BarAtRisk, BarAtRisk, State.bar_congr (evaluateStarve_bars s), evaluateStarve_pages]

/-- What changes nothing of the starve condition, SLOWDOWN and the reports, and then evaluates the condition. -/
theorem starveJudged_evaluateStarve {s u : State} (hstarve : u.store.starve = s.store.starve)
    (hslowdown : u.store.slowdown = s.store.slowdown) (hreports : u.reports = s.reports)
    (hpos : u.motion.pos = s.motion.pos) : StarveJudged s (evaluateStarve u) := by
  have holds : (evaluateStarve u).store.starve = true ↔
      (evaluateStarve u).control.op = .online ∧ ∃ x, BarAtRisk (evaluateStarve u) x := by
    rw [starveSettled_evaluateStarve u, starveHolds_iff]
  cases hh : starveHolds u <;> cases hs : u.store.starve
  · have e := evaluateStarve_stays (hs.trans hh.symm)
    exact ⟨holds, fun _ => by rw [e]; exact ⟨hslowdown, hreports⟩, fun _ ht => absurd ht (by simp [e, hs]),
      fun ht => absurd ht (by simp [← hstarve, hs])⟩
  · have e := evaluateStarve_leaves (starveHolds_eq_false_iff.mp hh) hs
    refine ⟨holds, fun ht => absurd ht (by simp [e, ← hstarve, hs]), fun ht => absurd ht (by simp [← hstarve, hs]),
      fun _ _ => ?_⟩
    rw [e, hreports, hpos]
    exact ⟨rfl, rfl⟩
  · obtain ⟨hop, hrisk⟩ := starveHolds_iff.mp hh
    obtain ⟨x, hx, hmin⟩ := wellFounded_lt.has_min {x | BarAtRisk u x} hrisk
    have hlow : ∀ y, y < x → ¬ BarAtRisk u y := fun y hy hrisk => hmin y hrisk hy
    have e := evaluateStarve_enters hop hs hx hlow
    refine ⟨holds, fun ht => absurd ht (by simp [e, ← hstarve, hs]), fun _ _ => ⟨by rw [e], x, ?_, fun y hy => ?_, ?_⟩,
      fun ht => absurd ht (by simp [← hstarve, hs])⟩
    · exact barAtRisk_evaluateStarve.mpr hx
    · exact fun h => hlow y hy (barAtRisk_evaluateStarve.mp h)
    · rw [e, hreports, hpos]
  · have e := evaluateStarve_stays (hs.trans hh.symm)
    exact ⟨holds, fun _ => by rw [e]; exact ⟨hslowdown, hreports⟩, fun ht => absurd ht (by simp [← hstarve, hs]),
      fun _ ht => absurd ht (by simp [e, hs])⟩

/-! ### The stripe complete or discarded (R60, R61) -/

theorem pageStart_changePage {id : Nat} {f : Page → Page} (hid : ∀ p, (f p).id = p.id)
    (hstart : ∀ p, (f p).start = p.start) (ps : List Page) (id' : Nat) :
    pageStart (changePage id f ps) id' = pageStart ps id' := by
  unfold pageStart
  by_cases h : id' = id
  · rw [h, findPage_changePage hid]
    cases findPage ps id with
    | none => rfl
    | some p => simp [hstart]
  · rw [findPage_changePage_of_ne hid h]

/-- A page with one more COMPLETE stripe of bar b. -/
def Page.withStripe (b : BarId) (p : Page) : Page := { p with complete := put p.complete b (entry p.complete b + 1) }

@[simp] theorem Page.withStripe_id (b : BarId) (p : Page) : (p.withStripe b).id = p.id := rfl

@[simp] theorem Page.withStripe_start (b : BarId) (p : Page) : (p.withStripe b).start = p.start := rfl

/-- The FILLING record COMPLETE and its page's count raised (R60). -/
def pieceCompleted (b : BarId) (pc : Piece) (s : State) : State :=
  (s.updateBar b fun bs =>
      { bs with ring := changeFilling (fun st => { st with state := .complete }) bs.ring }).updatePage pc.page
    (Page.withStripe b)

/-- The bar of a stripe that is complete: the stripe retires at once, or counts ahead (R64, R66). -/
def BarStore.completed (pc : Piece) (retire : Bool) (bs : BarStore) : BarStore :=
  if retire then
    { bs with
      ring := leaveFromHead (bs.ring.map fun st => if st.is pc.page pc.index then { st with retired := true } else st) }
  else { bs with ahead := bs.ahead + 1 }

theorem completeStripe_eq (b : BarId) (pc : Piece) (s : State) :
    completeStripe b pc s = evaluateStarve (refreshCursors ((pieceCompleted b pc s).updateBar b (BarStore.completed pc
      (match ((pieceCompleted b pc s).bar b).ring.getLast? with
      | some st => retirementDue (pieceCompleted b pc s) b st
      | none => false)))) := rfl

section
variable {b : BarId} {pc : Piece} {front : List Stripe} {pre : Option Stripe} {s : State}
  (h : MeetsRing b pc front pre s) (R : Nat) (hfinal : pc.final = true)
include h hfinal

theorem MeetsRing.storePiece_final : storePiece b pc R s =
    (let t := pieceStored b pc front (filled b pc R pre s) (slotFollowing b pre s) s
    if ((filled b pc R pre s).sum + Frame.byteSum pc.data) % 65536 = pc.sum then (completeStripe b pc t, .ok)
    else (discardStripe b t, .stripeCheck)) := by
  have hsum : fillingSum ((pieceStored b pc front (filled b pc R pre s) (slotFollowing b pre s) s).bar b) =
      ((filled b pc R pre s).sum + Frame.byteSum pc.data) % 65536 := by
    rw [pieceStored_bar, if_pos rfl, fillingSum,
      filling_at_tail h.complete (st := (filled b pc R pre s).plus pc) (h.filled_filling R) rfl]
    rfl
  rw [storePiece, h.storeRows_eq, if_pos hfinal, hsum]

theorem MeetsRing.storePiece_completes
    (hsum : ((filled b pc R pre s).sum + Frame.byteSum pc.data) % 65536 = pc.sum) : storePiece b pc R s =
      (completeStripe b pc (pieceStored b pc front (filled b pc R pre s) (slotFollowing b pre s) s), .ok) := by
  rw [h.storePiece_final R hfinal]
  exact if_pos hsum

theorem MeetsRing.storePiece_discards
    (hsum : ((filled b pc R pre s).sum + Frame.byteSum pc.data) % 65536 ≠ pc.sum) : storePiece b pc R s =
      (discardStripe b (pieceStored b pc front (filled b pc R pre s) (slotFollowing b pre s) s), .stripeCheck) := by
  rw [h.storePiece_final R hfinal]
  exact if_neg hsum

end

/-- Every row of the bar has passed the stripe's last line of its page, which is STARTED (R64). -/
def Passed (b : BarId) (p : Page) (last : Nat) (s : State) : Prop :=
  p.state = .started ∧ ∀ r line, rowBar r = b → ((s.row r).bind (·.cursor)) = some line →
    if line.page = p.id then last < line.line else p.start.getD 0 < pageStart s.pages line.page

theorem retirementDue_iff {s : State} {b : BarId} {p : Page} {st : Stripe} (hp : findPage s.pages st.page = some p)
    (hdone : p.state ≠ .done) (hcomplete : st.state = .complete) :
    retirementDue s b st = true ↔ Passed b p (64 * st.index + st.rows - 1) s := by
  rw [retirementDue, hp, Passed]
  cases hstate : p.state with
  | opened => simp [hstate]
  | done => exact absurd hstate hdone
  | started =>
    simp only [hstate, hcomplete, decide_true, Bool.true_and, List.all_eq_true, mem_barRows, true_and]
    refine forall_congr' fun r => ?_
    rw [rowPassed]
    cases (s.row r).bind (·.cursor) with
    | none => simp
    | some c => by_cases hc : c.page = p.id <;> simp [hc]

theorem pieceCompleted_bar_eq (b x : BarId) (pc : Piece) (s : State) : (pieceCompleted b pc s).bar x =
    if b = x then
      { s.bar b with ring := changeFilling (fun st => { st with state := .complete }) (s.bar b).ring }
    else s.bar x := by
  have hstore : (pieceCompleted b pc s).bar x =
    (s.updateBar b fun bs =>
      { bs with ring := changeFilling (fun st => { st with state := .complete }) bs.ring }).bar x := rfl
  rw [hstore, State.bar_updateBar]

/-- A record that its final piece completes. -/
def Stripe.ended (st : Stripe) (pc : Piece) : Stripe := { st.plus pc with state := .complete }

section
variable {b : BarId} {pc : Piece} {front : List Stripe} {st : Stripe} {next : Option Nat} {s : State}
  (hfront : ∀ y ∈ front, y.state = .complete) (hst : st.state = .filling)
include hfront hst

theorem pieceCompleted_bar (x : BarId) : (pieceCompleted b pc (pieceStored b pc front st next s)).bar x =
    if b = x then { s.bar b with ring := front ++ [st.ended pc], nextSlot := next } else s.bar x := by
  rw [pieceCompleted_bar_eq, pieceStored_bar, pieceStored_bar, if_pos rfl]
  split
  · simp only [changeFilling_at_tail hfront (st := st.plus pc) hst]
    rfl
  · rfl

omit hfront hst in
/-- Whether the stripe that is complete retires at once (R64). -/
theorem pieceCompleted_retires {p : Page} (hpage : st.page = pc.page) (hp : findPage s.pages pc.page = some p)
    (hdone : p.state ≠ .done) :
    retirementDue (pieceCompleted b pc (pieceStored b pc front st next s)) b (st.ended pc) = true ↔
      Passed b p (64 * st.index + st.rows - 1) s := by
  have hfind : findPage (pieceCompleted b pc (pieceStored b pc front st next s)).pages (st.ended pc).page =
      some (p.withStripe b) := by
    show findPage (changePage pc.page (Page.withStripe b) s.pages) st.page = _
    rw [hpage, findPage_changePage (Page.withStripe_id b), hp]
    rfl
  have hstart : ∀ id, pageStart (pieceCompleted b pc (pieceStored b pc front st next s)).pages id =
      pageStart s.pages id := pageStart_changePage (Page.withStripe_id b) (Page.withStripe_start b) s.pages
  rw [retirementDue_iff hfind hdone rfl, Passed, Passed]
  simp only [hstart]
  rfl

end

theorem State.updateBar_congr {s : State} {b : BarId} {f g : BarStore → BarStore} (h : f (s.bar b) = g (s.bar b)) :
    s.updateBar b f = s.updateBar b g := by
  rw [State.bar] at h
  rw [State.updateBar, State.updateBar, h]

/-- The part with a stripe complete, before the cursors are set anew and the starve condition is evaluated: it retires
at once, or counts ahead. -/
def pieceEnded (b : BarId) (pc : Piece) (retire : Bool) (s : State) : State :=
  (pieceCompleted b pc s).updateBar b (BarStore.completed pc retire)

/-- The part with a stripe discarded, before the cursors are set anew. -/
def pieceDiscarded (b : BarId) (front : List Stripe) (slot : Nat) (s : State) : State :=
  s.updateBar b fun bs => { bs with ring := front, nextSlot := some slot }

section
variable {b : BarId} {pc : Piece} {front : List Stripe} {st : Stripe} {next : Option Nat} {s : State}
  (hfront : ∀ y ∈ front, y.state = .complete) (hst : st.state = .filling)
include hfront hst

theorem completeStripe_stored : completeStripe b pc (pieceStored b pc front st next s) =
    evaluateStarve (refreshCursors (pieceEnded b pc
      (retirementDue (pieceCompleted b pc (pieceStored b pc front st next s)) b (st.ended pc))
      (pieceStored b pc front st next s))) := by
  rw [completeStripe_eq, pieceCompleted_bar hfront hst b, if_pos rfl, List.getLast?_concat, pieceEnded]

theorem discardStripe_stored : discardStripe b (pieceStored b pc front st next s) =
    refreshCursors (pieceDiscarded b front st.slot (pieceStored b pc front st next s)) := by
  have hbar := (pieceStored_bar b b pc front st next s).trans (if_pos rfl)
  have hring : ((pieceStored b pc front st next s).bar b).ring = front ++ [st.plus pc] := by rw [hbar]
  rw [discardStripe, pieceDiscarded]
  refine congrArg refreshCursors (State.updateBar_congr ?_)
  rw [filling_at_tail hfront (st := st.plus pc) hst hring, hring, filter_filling_at_tail hfront (st := st.plus pc) hst]
  rfl

theorem pieceEnded_bar (retire : Bool) (x : BarId) :
    (pieceEnded b pc retire (pieceStored b pc front st next s)).bar x =
      if b = x then
        BarStore.completed pc retire { s.bar b with ring := front ++ [st.ended pc], nextSlot := next }
      else s.bar x := by
  rw [pieceEnded, State.bar_updateBar, pieceCompleted_bar hfront hst, pieceCompleted_bar hfront hst, if_pos rfl]
  split <;> rfl

end

theorem pieceDiscarded_bar (b x : BarId) (pc : Piece) (front : List Stripe) (st : Stripe) (next : Option Nat)
    (slot : Nat) (s : State) : (pieceDiscarded b front slot (pieceStored b pc front st next s)).bar x =
      if b = x then { s.bar b with ring := front, nextSlot := some slot } else s.bar x := by
  rw [pieceDiscarded, State.bar_updateBar, pieceStored_bar, pieceStored_bar, if_pos rfl]
  split <;> rfl

/-! ### What becomes of the stripe -/

/-- The stripe is complete; it is retired at once or counts ahead. -/
structure StripeCompleted (b : BarId) (pc : Piece) (front : List Stripe) (ended : Stripe) (next : Option Nat)
    (retired : Prop) (s t : State) : Prop where
  pages : t.pages = changePage pc.page (Page.withStripe b) s.pages
  next_slot : (t.bar b).nextSlot = next
  counts : ¬ retired → (t.bar b).ring = front ++ [ended] ∧ (t.bar b).ahead = (s.bar b).ahead + 1
  retires : retired → (t.bar b).ring = (front ++ [{ ended with retired := true }]).dropWhile (·.retired) ∧
    (t.bar b).ahead = (s.bar b).ahead
  starve : StarveJudged s t

/-- The stripe is discarded, and its slot is the ring's next. -/
structure StripeDiscarded (b : BarId) (front : List Stripe) (slot : Nat) (s t : State) : Prop where
  pages : t.pages = s.pages
  ring : (t.bar b).ring = front
  next_slot : (t.bar b).nextSlot = some slot
  ahead : (t.bar b).ahead = (s.bar b).ahead
  reports : t.reports = s.reports
  starve : t.store.starve = s.store.starve
  slowdown : t.store.slowdown = s.store.slowdown

theorem refreshCursors_starve (s : State) : (refreshCursors s).store.starve = s.store.starve := rfl

theorem refreshCursors_slowdown (s : State) : (refreshCursors s).store.slowdown = s.store.slowdown := rfl

theorem refreshCursors_motion (s : State) : (refreshCursors s).motion = s.motion := rfl

theorem writeRows_starve (slot width place n : Nat) (data : List Byte) (st : Store) :
    (writeRows slot width place n data st).starve = st.starve ∧
      (writeRows slot width place n data st).slowdown = st.slowdown := by
  rw [writeRows_eq]
  exact ⟨rfl, rfl⟩

theorem pieceEnded_image (b : BarId) (pc : Piece) (retire : Bool) (s : State) :
    (pieceEnded b pc retire s).image = s.image := rfl

theorem readsOnly_pieceStored (b : BarId) (pc : Piece) (front : List Stripe) (st : Stripe) (next : Option Nat)
    (s : State) : ReadsOnly s (pieceStored b pc front st next s) := rfl

theorem readsOnly_pieceEnded (b : BarId) (pc : Piece) (retire : Bool) (s : State) :
    ReadsOnly s (pieceEnded b pc retire s) :=
  ((readsOnly_updateBar s b _).trans (readsOnly_updatePage _ pc.page _)).trans (readsOnly_updateBar _ b _)

/-- The ring once a stripe that is complete retires at once: no other record answers to its page and index. -/
theorem retire_tail {pc : Piece} {front : List Stripe} {st : Stripe}
    (hunlike : ∀ y ∈ front, y.released = false → ¬ (y.page = pc.page ∧ y.index = pc.index))
    (hpage : st.page = pc.page) (hindex : st.index = pc.index) (hreleased : st.released = false) :
    leaveFromHead ((front ++ [st.ended pc]).map fun x =>
        if x.is pc.page pc.index then { x with retired := true } else x) =
      (front ++ [{ st.ended pc with retired := true }]).dropWhile (·.retired) := by
  have hkeep : (front.map fun x => if x.is pc.page pc.index then { x with retired := true } else x) = front := by
    refine (List.map_congr_left fun y hy => if_neg ?_).trans (List.map_id front)
    intro his
    simp only [Stripe.is, Bool.and_eq_true, decide_eq_true_eq, Bool.not_eq_true'] at his
    exact hunlike y hy his.2 his.1
  have his : (st.ended pc).is pc.page pc.index = true := by
    simp [Stripe.is, Stripe.ended, Stripe.plus, hpage, hindex, hreleased]
  rw [leaveFromHead, List.map_append, hkeep, List.map_singleton, if_pos his]

section
variable {b : BarId} {pc : Piece} {front : List Stripe} {st : Stripe} {next : Option Nat} {s : State}
  (hfront : ∀ y ∈ front, y.state = .complete) (hst : st.state = .filling)
include hfront hst

theorem stripeCompleted_completeStripe {p : Page} (hpage : st.page = pc.page) (hindex : st.index = pc.index)
    (hreleased : st.released = false) (hp : findPage s.pages pc.page = some p) (hdone : p.state ≠ .done)
    (hunlike : ∀ y ∈ front, y.released = false → ¬ (y.page = pc.page ∧ y.index = pc.index)) :
    StripeCompleted b pc front (st.ended pc) next (Passed b p (64 * st.index + st.rows - 1) s) s
      (completeStripe b pc (pieceStored b pc front st next s)) := by
  have hretires := pieceCompleted_retires (b := b) (front := front) (next := next) hpage hp hdone
  rw [completeStripe_stored hfront hst]
  generalize retirementDue (pieceCompleted b pc (pieceStored b pc front st next s)) b (st.ended pc) = retire at hretires
  have hended := (pieceEnded_bar (pc := pc) (next := next) (s := s) hfront hst retire b).trans (if_pos rfl)
  have hbar : (evaluateStarve (refreshCursors (pieceEnded b pc retire (pieceStored b pc front st next s)))).bar b = _ :=
    (State.bar_congr (evaluateStarve_bars _) b).trans (refreshCursors_bar b _)
  rw [hended] at hbar
  have hwrite := writeRows_starve st.slot (rowBytes s.geometry b) pc.firstRow pc.rowCount pc.data s.store
  refine ⟨?_, ?_, fun hnot => ?_, fun hpassed => ?_, ?_⟩
  · rw [evaluateStarve_pages, refreshCursors_pages]
    rfl
  · rw [hbar]
    cases retire <;> rfl
  · obtain rfl : retire = false := by rw [Bool.eq_false_iff]; exact fun h => hnot (hretires.mp h)
    rw [hbar]
    exact ⟨rfl, rfl⟩
  · obtain rfl : retire = true := hretires.mpr hpassed
    rw [hbar]
    exact ⟨retire_tail hunlike hpage hindex hreleased, rfl⟩
  · refine starveJudged_evaluateStarve ?_ ?_ (refreshCursors_reports _) (congrArg _ (refreshCursors_motion _))
    · exact (refreshCursors_starve _).trans hwrite.1
    · exact (refreshCursors_slowdown _).trans hwrite.2

theorem pieceKept_completeStripe
    (hwritten : RowsWritten st.slot (rowBytes s.geometry b) pc.firstRow pc.rowCount pc.data s.store
      (pieceStored b pc front st next s).store) :
    PieceKept b pc st.slot s (completeStripe b pc (pieceStored b pc front st next s)) := by
  rw [completeStripe_stored hfront hst]
  generalize retirementDue (pieceCompleted b pc (pieceStored b pc front st next s)) b (st.ended pc) = retire
  have hbar := fun x => pieceEnded_bar (b := b) (pc := pc) (next := next) (s := s) hfront hst retire x
  refine (pieceKept_refreshCursors hwritten ?_ ?_ (fun x hx => ?_) (pieceEnded_image b pc retire _)
    ((readsOnly_pieceStored b pc front st next s).trans (readsOnly_pieceEnded b pc retire _))).evaluateStarve
  · rw [hbar, if_pos rfl]
    cases retire <;> rfl
  · rw [hbar, if_pos rfl]
    cases retire <;> rfl
  · rw [hbar, if_neg (Ne.symm hx)]

theorem stripeDiscarded_discardStripe :
    StripeDiscarded b front st.slot s (discardStripe b (pieceStored b pc front st next s)) := by
  rw [discardStripe_stored hfront hst]
  have hbar := (refreshCursors_bar b (pieceDiscarded b front st.slot (pieceStored b pc front st next s))).trans
    (by rw [pieceDiscarded_bar, if_pos rfl])
  have hwrite := writeRows_starve st.slot (rowBytes s.geometry b) pc.firstRow pc.rowCount pc.data s.store
  refine ⟨refreshCursors_pages _, ?_, ?_, ?_, refreshCursors_reports _, ?_, ?_⟩
  · rw [hbar]
  · rw [hbar]
  · rw [hbar]
  · exact (refreshCursors_starve _).trans hwrite.1
  · exact (refreshCursors_slowdown _).trans hwrite.2

theorem pieceKept_discardStripe
    (hwritten : RowsWritten st.slot (rowBytes s.geometry b) pc.firstRow pc.rowCount pc.data s.store
      (pieceStored b pc front st next s).store) :
    PieceKept b pc st.slot s (discardStripe b (pieceStored b pc front st next s)) := by
  rw [discardStripe_stored hfront hst]
  refine pieceKept_refreshCursors hwritten ?_ ?_ (fun x hx => ?_) rfl rfl
  · rw [pieceDiscarded_bar, if_pos rfl]
  · rw [pieceDiscarded_bar, if_pos rfl]
  · rw [pieceDiscarded_bar, if_neg (Ne.symm hx)]

end

/-- Settles O42: the sum decides between the stripe complete and the stripe discarded, and where it is complete the rows
that have passed it decide whether it retires at once. -/
theorem finalPieceJudged : Obligations.FinalPieceJudged := by
  unfold Obligations.FinalPieceJudged
  intro body b p front pre s htakes pc width R first st ended passed hop hbar hheads hcapacity hwidth hpage hnamed hdone
    hcursor hsome hfew hlength hbody hrows hfinal hring hfront hunlike hopens hgoes
  have hpasses : PiecePasses body b p s :=
    ⟨hop, hbar, hheads, hcapacity, hpage, hnamed, hcursor, hsome, hfew, hlength, hbody, hrows.le,
      ⟨fun _ => hrows, fun _ => hfinal⟩⟩
  have hmeets : MeetsRing b pc front pre s := by
    refine ⟨hring, hfront, fun h => ?_, fun x h => ?_⟩
    · obtain ⟨hrow, hroom, -⟩ := hopens h
      exact ⟨hrow, hroom⟩
    · obtain ⟨hrow, hfill, -⟩ := hgoes x h
      exact ⟨hfill, hrow⟩
  have hst : st.state = .filling := hmeets.filled_filling R
  have hexec := hpasses.exec htakes hmeets
  have hwritten := PiecePasses.written (s := admitted 0xFF s) { hpasses with } hwidth front st (slotFollowing b pre s)
  have hpagest : st.page = pc.page ∧ st.index = pc.index ∧ st.rows = R ∧ st.released = false := by
    cases pre with
    | none => exact ⟨rfl, rfl, rfl, rfl⟩
    | some x =>
      obtain ⟨-, -, hxpage, hxindex, hxrows, -, hxreleased, -⟩ := hgoes x rfl
      exact ⟨hxpage, hxindex, hxrows, hxreleased⟩
  obtain ⟨hstpage, hstindex, hstrows, hstreleased⟩ := hpagest
  obtain ⟨u, status, hexec, hkept, hcomplete, hdiscard⟩ : ∃ u status,
      exec (.stripePiece body) s = .next (answered 0xFF status (pieceFields b u) { u with link := s.link }) ∧
      PieceKept b pc st.slot (admitted 0xFF s) u ∧
      ((st.sum + Frame.byteSum pc.data) % 65536 = pc.sum → status = .ok ∧
        StripeCompleted b pc front (st.ended pc) (slotFollowing b pre s)
          (Passed b p (64 * st.index + st.rows - 1) (admitted 0xFF s)) (admitted 0xFF s) u) ∧
      ((st.sum + Frame.byteSum pc.data) % 65536 ≠ pc.sum → status = .stripeCheck ∧
        StripeDiscarded b front st.slot (admitted 0xFF s) u) := by
    by_cases hsum : (st.sum + Frame.byteSum pc.data) % 65536 = pc.sum
    · rw [MeetsRing.storePiece_completes (s := admitted 0xFF s) { hmeets with } R hfinal hsum] at hexec
      exact ⟨_, _, hexec, pieceKept_completeStripe hfront hst hwritten,
        fun _ => ⟨rfl, stripeCompleted_completeStripe hfront hst hstpage hstindex hstreleased hpage hdone hunlike⟩,
        fun h => absurd hsum h⟩
    · rw [MeetsRing.storePiece_discards (s := admitted 0xFF s) { hmeets with } R hfinal hsum] at hexec
      exact ⟨_, _, hexec, pieceKept_discardStripe hfront hst hwritten, fun h => absurd h hsum,
        fun _ => ⟨rfl, stripeDiscarded_discardStripe hfront hst⟩⟩
  have hreads := hkept.reads
  rw [ReadsOnly] at hreads
  refine ⟨_, hexec, fun i j hi hj => ?_, hkept.written.other_bytes, hkept.written.words, hkept.written.other_words,
    hkept.threshold, hkept.capacity, fun x => ⟨hkept.cursors x, hkept.others x⟩, ?_, ?_, ?_, ?_, ?_, ?_, ?_,
    fun hsum => ?_, fun hsum => ?_⟩
  · exact (hkept.written.bytes i j hi hj).trans (data_getD body i width j)
  iterate 7
    · rw [hreads]
      rfl
  · obtain ⟨rfl, hended⟩ := hcomplete hsum
    have hrecord : st.ended pc = ended := by
      show { st.plus pc with state := .complete } = ended
      rw [Stripe.plus, show (st.sum + Frame.byteSum pc.data) % 65536 = pc.sum from hsum]
    have hpassed : Passed b p (64 * st.index + st.rows - 1) (admitted 0xFF s) ↔ passed := by
      rw [hstindex, hstrows]
      rfl
    rw [hrecord] at hended
    have hstarve := hended.starve
    exact ⟨rfl, hended.pages, hended.next_slot, fun h => hended.counts (mt hpassed.mp h),
      fun h => hended.retires (hpassed.mpr h), hstarve.holds_iff, hstarve.stays, hstarve.enters, hstarve.leaves⟩
  · obtain ⟨rfl, hended⟩ := hdiscard hsum
    exact ⟨rfl, hended.pages, hended.ring, hended.next_slot, hended.ahead, hended.reports, hended.starve,
      hended.slowdown⟩

end Sys2Proof.Machine
end

section
/-! PROOF. The slots of a ring (R53, R59): those of its records, oldest first, and the next slot are successive slots of
the bar's run, counted around it. -/

namespace Sys2Proof.Machine

/-- The slot at a place of a run, counted around the run. -/
def runSlot (first capacity place : Nat) : Nat := first + place % capacity

/-- The slots of a ring's records and its next slot follow one another in a run of slots. -/
structure SlotsOk (first capacity : Nat) (next : Option Nat) (slots : List Nat) : Prop where
  length_le : slots.length ≤ capacity
  around : ∃ i, slots = (List.range' i slots.length).map (runSlot first capacity) ∧
    next = if capacity = 0 then none else some (runSlot first capacity (i + slots.length))

section
variable {first capacity : Nat} {next : Option Nat} {slots : List Nat}

theorem runSlot_bounds (hc : 0 < capacity) (i : Nat) :
    first ≤ runSlot first capacity i ∧ runSlot first capacity i < first + capacity := by
  have := Nat.mod_lt i hc
  rw [runSlot]
  omega

theorem slotAfter_runSlot (hc : 0 < capacity) (i : Nat) :
    slotAfter first capacity (runSlot first capacity i) = runSlot first capacity (i + 1) := by
  have hlt := Nat.mod_lt i hc
  rw [slotAfter, runSlot, runSlot, Nat.add_mod i 1]
  by_cases hend : i % capacity + 1 = capacity
  · rw [if_neg (by omega)]
    rcases Nat.lt_or_ge 1 capacity with h | h
    · rw [Nat.mod_eq_of_lt h, hend, Nat.mod_self, add_zero]
    · rw [show capacity = 1 by omega, Nat.mod_one, add_zero]
  · rw [if_pos (by omega), Nat.mod_eq_of_lt (show 1 < capacity by omega),
      Nat.mod_eq_of_lt (show i % capacity + 1 < capacity by omega), add_assoc]

/-- A slot of a run stands at some place of it. -/
theorem exists_runSlot {slot : Nat} (h : first ≤ slot ∧ slot < first + capacity) :
    ∃ i, slot = runSlot first capacity i :=
  ⟨slot - first, by rw [runSlot, Nat.mod_eq_of_lt (by omega)]; omega⟩

/-! ### What happens at a ring's ends -/

theorem slotsOk_nil (first capacity : Nat) :
    SlotsOk first capacity (if capacity = 0 then none else some first) [] :=
  ⟨Nat.zero_le _, 0, rfl, by simp [runSlot]⟩

theorem SlotsOk.of_append_right {xs ys : List Nat} (h : SlotsOk first capacity next (xs ++ ys)) :
    SlotsOk first capacity next ys := by
  obtain ⟨hlen, i, hslots, hnext⟩ := h
  rw [List.length_append] at hlen hslots hnext
  rw [← List.range'_append_1, List.map_append] at hslots
  exact ⟨by omega, i + xs.length, (List.append_inj hslots (by simp)).2, by rw [hnext, add_assoc]⟩

theorem SlotsOk.dropWhile_map {α : Type} {f : α → Nat} {ring : List α} (p : α → Bool)
    (h : SlotsOk first capacity next (ring.map f)) : SlotsOk first capacity next ((ring.dropWhile p).map f) := by
  rw [← List.takeWhile_append_dropWhile (p := p) (l := ring), List.map_append] at h
  exact h.of_append_right

theorem SlotsOk.withdraw {slot : Nat} (h : SlotsOk first capacity next (slots ++ [slot])) :
    SlotsOk first capacity (some slot) slots := by
  obtain ⟨hlen, i, hslots, hnext⟩ := h
  rw [List.length_append, List.length_singleton] at hlen hslots hnext
  rw [← List.range'_append_1, List.map_append] at hslots
  obtain ⟨hxs, hx⟩ := List.append_inj hslots (by simp)
  refine ⟨by omega, i, hxs, ?_⟩
  rw [if_neg (by omega)]
  simpa using hx

theorem SlotsOk.push {n : Nat} (h : SlotsOk first capacity (some n) slots) (hlt : slots.length < capacity) :
    SlotsOk first capacity (some (slotAfter first capacity n)) (slots ++ [n]) := by
  obtain ⟨hlen, i, hslots, hnext⟩ := h
  rw [if_neg (by omega)] at hnext
  obtain rfl := Option.some.inj hnext
  refine ⟨by simpa using hlt, i, ?_, ?_⟩
  · rw [List.length_append, List.length_singleton, ← List.range'_append_1, List.map_append, ← hslots]
    simp
  · rw [if_neg (by omega), slotAfter_runSlot (by omega), List.length_append, List.length_singleton, add_assoc]

/-! ### The slots of a bar in order -/

theorem SlotsOk.next_isSome (h : SlotsOk first capacity next slots) : next.isSome = decide (capacity ≠ 0) := by
  obtain ⟨-, i, -, rfl⟩ := h
  by_cases hc : capacity = 0 <;> simp [hc]

theorem SlotsOk.next_bounds (h : SlotsOk first capacity next slots) {n : Nat} (hn : next = some n) :
    first ≤ n ∧ n < first + capacity := by
  obtain ⟨-, i, -, hnext⟩ := h
  by_cases hc : capacity = 0
  · simp [hn, hc] at hnext
  · rw [hn, if_neg hc] at hnext
    exact Option.some.inj hnext ▸ runSlot_bounds (by omega) _

theorem SlotsOk.bounds (h : SlotsOk first capacity next slots) {n : Nat} (hn : n ∈ slots) :
    first ≤ n ∧ n < first + capacity := by
  have hpos : 0 < capacity := (List.length_pos_of_mem hn).trans_le h.length_le
  obtain ⟨-, i, hslots, -⟩ := h
  rw [hslots] at hn
  obtain ⟨j, -, rfl⟩ := List.mem_map.mp hn
  exact runSlot_bounds hpos j

/-- Two places of a run that lie less than the run apart are different slots. -/
theorem place_le_of_runSlot_eq {x y : Nat} (hxy : runSlot first capacity x = runSlot first capacity y)
    (hlt : y < x + capacity) : y ≤ x := by
  by_contra hle
  have hmod : x % capacity = y % capacity := Nat.add_left_cancel hxy
  have hdvd : capacity ∣ y - x := (Nat.modEq_iff_dvd' (by omega)).mp hmod
  have := Nat.eq_zero_of_dvd_of_lt hdvd (by omega)
  omega

theorem SlotsOk.nodup (h : SlotsOk first capacity next slots) : slots.Nodup := by
  obtain ⟨hlen, i, hslots, -⟩ := h
  rw [hslots]
  refine List.Nodup.map_on (fun x hx y hy hxy => ?_) List.nodup_range'
  rw [List.mem_range'_1] at hx hy
  exact le_antisymm (place_le_of_runSlot_eq hxy.symm (by omega)) (place_le_of_runSlot_eq hxy (by omega))

theorem SlotsOk.follows {xs ys : List Nat} {x y : Nat} (h : SlotsOk first capacity next (xs ++ x :: y :: ys)) :
    y = slotAfter first capacity x := by
  obtain ⟨hlen, i, hslots, -⟩ := h.of_append_right
  simp only [List.length_cons, List.range'_succ, List.map_cons, List.cons.injEq] at hslots hlen
  obtain ⟨rfl, rfl, -⟩ := hslots
  exact (slotAfter_runSlot (by omega) i).symm

theorem SlotsOk.next_follows {xs : List Nat} {x : Nat} (h : SlotsOk first capacity next (xs ++ [x])) :
    next = some (slotAfter first capacity x) := by
  obtain ⟨hlen, i, hslots, hnext⟩ := h.of_append_right
  simp only [List.length_singleton, List.range'_succ, List.range'_zero, List.map_cons, List.map_nil, List.cons.injEq,
    and_true] at hslots hlen hnext
  rw [hnext, if_neg (by omega), hslots, slotAfter_runSlot (by omega)]

/-- Slots each of which is the one after the slot before it stand at successive places of the run. -/
theorem eq_range'_of_follows {x i : Nat} {xs : List Nat} (hc : 0 < capacity) (hx : x = runSlot first capacity i)
    (h : (x :: xs).IsChain fun a b => b = slotAfter first capacity a) :
    x :: xs = (List.range' i (xs.length + 1)).map (runSlot first capacity) := by
  induction xs generalizing x i with
  | nil => simp [hx]
  | cons y xs ih =>
    rw [List.isChain_cons_cons] at h
    have hy : y = runSlot first capacity (i + 1) := by rw [h.1, hx, slotAfter_runSlot hc]
    rw [List.length_cons, List.range'_succ, List.map_cons, ← ih hy h.2, ← hx]

theorem slotsOk_of_follows (hlen : slots.length ≤ capacity) (hnext : next.isSome = decide (capacity ≠ 0))
    (hbounds : ∀ n ∈ slots ++ next.toList, first ≤ n ∧ n < first + capacity)
    (hchain : (slots ++ next.toList).IsChain fun a b => b = slotAfter first capacity a) :
    SlotsOk first capacity next slots := by
  refine ⟨hlen, ?_⟩
  by_cases hc : capacity = 0
  · obtain rfl : slots = [] := List.eq_nil_of_length_eq_zero (by omega)
    exact ⟨0, rfl, by simpa [hc] using hnext⟩
  · obtain ⟨n, rfl⟩ : ∃ n, next = some n := Option.isSome_iff_exists.mp (by simpa [hc] using hnext)
    obtain ⟨x, xs, hlist⟩ : ∃ x xs, slots ++ (some n).toList = x :: xs := List.exists_cons_of_ne_nil (by simp)
    obtain ⟨i, hi⟩ := exists_runSlot (hbounds x (hlist ▸ List.mem_cons_self))
    rw [hlist] at hchain
    have hall := hlist.trans (eq_range'_of_follows (Nat.pos_of_ne_zero hc) hi hchain)
    have hlength : xs.length + 1 = slots.length + 1 := by simpa using (congrArg List.length hlist).symm
    rw [hlength, ← List.range'_append_1, List.map_append] at hall
    obtain ⟨hslots, hn⟩ := List.append_inj hall (by simp)
    exact ⟨i, hslots, by simpa [hc] using hn⟩

end

end Sys2Proof.Machine
end

section
/-! PROOF. The Stripe Store in order (R53, R55, R56, R59, R66), bar by bar: `BarOk` taken apart into the slots of the
ring, its records against the page queue, the counts, and the cursor, which follows from the rest. -/

namespace Sys2Proof.Machine

/-! ### The parts of `BarOk` -/

/-- A record of bar b's ring against the page queue. A FILLING one is the stripe that the oldest page with stripes
lacking expects next. -/
structure StripeSound (ps : List Page) (b : BarId) (st : Stripe) : Prop where
  paged : st.released = false → ∃ p ∈ ps, p.id = st.page ∧ entry p.bars b = true ∧
    (p.state = .done → st.retired = true) ∧ (st.state = .complete → st.index < entry p.complete b) ∧
    st.rows = stripeRows p.length st.index
  settled : st.released = false → ∀ q ∈ ps, placeOf ps q.id < placeOf ps st.page → lacksStripes b q = false
  released_retired : st.released = true → st.retired = true
  complete : st.state = .complete → st.received = st.rows
  filling : st.state = .filling → st.taken = false ∧ st.retired = false ∧ st.released = false ∧ 0 < st.received ∧
    st.received < st.rows ∧ ∃ p, ps.find? (lacksStripes b) = some p ∧ p.id = st.page ∧ entry p.complete b = st.index
  sum_lt : st.sum < 65536

/-- One record stands before another in page-queue order and then in index order. -/
def Stripe.before (ps : List Page) (x y : Stripe) : Prop :=
  placeOf ps x.page < placeOf ps y.page ∨ x.page = y.page ∧ x.index < y.index

/-- The records of bar b's ring against the page queue. -/
structure RecordsSound (ps : List Page) (b : BarId) (ring : List Stripe) : Prop where
  newest_fills : ring.Pairwise fun x _ => x.state = .complete
  ordered : ring.Pairwise fun x y => x.released = false → y.released = false → x.before ps y
  stripes : ∀ st ∈ ring, StripeSound ps b st

/-- What the Stripe Store holds for bar b is in order, but for its cursor. -/
structure BarSound (first : Nat) (ps : List Page) (b : BarId) (bs : BarStore) : Prop where
  slots : SlotsOk first bs.capacity bs.nextSlot (bs.ring.map (·.slot))
  threshold_le : bs.threshold ≤ bs.capacity
  records : RecordsSound ps b bs.ring
  counts : ∀ p ∈ ps, entry p.complete b ≤ entry p.expected b
  ahead : bs.ahead = (bs.ring.filter Stripe.counted).length

/-! ### The cursor and the FILLING record -/

theorem pairwise_left_iff_dropLast {α : Type} {P : α → Prop} {xs : List α} :
    (xs.Pairwise fun x _ => P x) ↔ ∀ x ∈ xs.dropLast, P x := by
  rcases List.eq_nil_or_concat' xs with rfl | ⟨front, x, rfl⟩
  · simp
  · rw [List.dropLast_concat, List.pairwise_append]
    refine ⟨fun ⟨_, _, hcross⟩ y hy => hcross y hy x (List.mem_singleton_self x), fun h =>
      ⟨List.pairwise_of_forall_mem_list fun y hy _ _ => h y hy, List.pairwise_singleton _ _, fun y hy _ _ => h y hy⟩⟩

/-- A FILLING record of a ring is its newest. -/
theorem RecordsSound.filling_last {ps : List Page} {b : BarId} {ring : List Stripe} (h : RecordsSound ps b ring)
    {st : Stripe} (hst : st ∈ ring) (hfill : st.state = .filling) :
    ∃ front, ring = front ++ [st] ∧ ∀ y ∈ front, y.state = .complete := by
  obtain ⟨front, back, rfl⟩ := List.append_of_mem hst
  obtain ⟨-, hback, hcross⟩ := List.pairwise_append.mp h.newest_fills
  have hnil : back = [] := by
    cases back with
    | nil => rfl
    | cons y back =>
      have hcomplete := (List.pairwise_cons.mp hback).1 y List.mem_cons_self
      simp [hfill] at hcomplete
  subst hnil
  exact ⟨front, rfl, fun y hy => hcross y hy st List.mem_cons_self⟩

theorem cursorOf_eq {ps : List Page} {bs : BarStore} {b : BarId} {p : Page} (hp : ps.find? (lacksStripes b) = some p) :
    cursorOf ps bs b =
      some { page := p.id, index := entry p.complete b, row := fillingRows bs.ring p.id (entry p.complete b) } := by
  rw [cursorOf, hp]
  rfl

/-- The cursor stands at the rows received of the FILLING record. -/
theorem RecordsSound.cursorOf_filling {ps : List Page} {b : BarId} {bs : BarStore} (h : RecordsSound ps b bs.ring)
    {st : Stripe} (hst : st ∈ bs.ring) (hfill : st.state = .filling) :
    cursorOf ps bs b = some { page := st.page, index := st.index, row := st.received } := by
  obtain ⟨front, hring, hfront⟩ := h.filling_last hst hfill
  obtain ⟨-, -, hreleased, -, -, p, hp, hid, hindex⟩ := (h.stripes st hst).filling hfill
  rw [cursorOf_eq hp, hid, hindex, hring, fillingRows_at (newer := []) hfill hreleased hfront]

/-- Where the cursor stands in a stripe, the ring's newest record is that stripe's, FILLING. -/
theorem RecordsSound.exists_filling {ps : List Page} {b : BarId} {bs : BarStore} (h : RecordsSound ps b bs.ring)
    {page index row : Nat} (hcursor : cursorOf ps bs b = some { page := page, index := index, row := row })
    (hrow : row ≠ 0) :
    ∃ front st, bs.ring = front ++ [st] ∧ (∀ y ∈ front, y.state = .complete) ∧ st.state = .filling := by
  cases hp : ps.find? (lacksStripes b) with
  | none => simp [cursorOf, hp] at hcursor
  | some p =>
    rw [cursorOf_eq hp, Option.some.injEq, StripeCursor.mk.injEq, fillingRows] at hcursor
    obtain ⟨-, -, hrows⟩ := hcursor
    split at hrows
    next st hfind =>
      have hfill : st.state = .filling := by
        have hmatch := List.find?_some hfind
        simp only [Bool.and_eq_true, decide_eq_true_eq] at hmatch
        exact hmatch.1
      obtain ⟨front, hring, hfront⟩ := h.filling_last (List.mem_of_find?_eq_some hfind) hfill
      exact ⟨front, st, hring, hfront, hfill⟩
    next => exact absurd hrows.symm hrow

/-! ### `BarOk` and its parts -/

theorem stripeSound_of_stripeOk {s : State} {b : BarId} {st : Stripe} (h : StripeOk s b st)
    (hcursor : (s.bar b).cursor = cursorOf s.pages (s.bar b) b) : StripeSound s.pages b st :=
  { h with
    filling := fun hfill => by
      obtain ⟨htaken, hretired, hreleased, hpos, hlt, hc⟩ := h.filling hfill
      refine ⟨htaken, hretired, hreleased, hpos, hlt, ?_⟩
      rw [hcursor] at hc
      cases hp : s.pages.find? (lacksStripes b) with
      | none => simp [cursorOf, hp] at hc
      | some p =>
        rw [cursorOf_eq hp, Option.some.injEq, StripeCursor.mk.injEq] at hc
        obtain ⟨hid, hindex, -⟩ := hc
        exact ⟨p, rfl, hid, hindex⟩ }

theorem barOk_slots_follow {s : State} {b : BarId} (h : BarOk s b) :
    ((s.bar b).ring.map (·.slot) ++ (s.bar b).nextSlot.toList).IsChain fun x y =>
      y = slotAfter (firstSlot s.store.bars b) (s.bar b).capacity x := by
  refine List.isChain_append.mpr ⟨?_, ?_, fun x hx y hy => ?_⟩
  · rw [List.isChain_map, List.isChain_iff_forall_rel_of_append_cons_cons]
    exact fun x y front back hring => h.slots_follow front x y back hring
  · cases (s.bar b).nextSlot <;> simp
  · rcases List.eq_nil_or_concat' (s.bar b).ring with hnil | ⟨front, st, hring⟩
    · simp [hnil] at hx
    · have hnext := h.next_follows front st hring
      obtain rfl : st.slot = x := by simpa [hring] using hx
      simpa [hnext] using hy.symm

theorem barSound_of_barOk {s : State} {b : BarId} (h : BarOk s b) :
    BarSound (firstSlot s.store.bars b) s.pages b (s.bar b) where
  slots := by
    refine slotsOk_of_follows (by simpa using h.length_le) h.next_slot (fun n hn => ?_) ?_
    · rcases List.mem_append.mp hn with hn | hn
      · obtain ⟨st, hst, rfl⟩ := List.mem_map.mp hn
        exact h.slots_in_run st hst
      · exact h.next_in_run n (by simpa using hn)
    · exact barOk_slots_follow h
  threshold_le := h.threshold_le
  records :=
    { newest_fills := pairwise_left_iff_dropLast.mpr h.newest_fills
      ordered := h.ordered
      stripes := fun st hst => stripeSound_of_stripeOk (h.stripes st hst) h.cursor }
  counts := h.counts
  ahead := h.ahead

theorem barOk_of_barSound {s : State} {b : BarId}
    (h : BarSound (firstSlot s.store.bars b) s.pages b (s.bar b))
    (hcursor : (s.bar b).cursor = cursorOf s.pages (s.bar b) b) : BarOk s b where
  length_le := by simpa using h.slots.length_le
  threshold_le := h.threshold_le
  next_slot := h.slots.next_isSome
  next_in_run := fun n hn => h.slots.next_bounds hn
  slots_in_run := fun st hst => h.slots.bounds (List.mem_map_of_mem hst)
  slots_follow := fun front x y back hring => by
    have hslots := h.slots
    rw [hring, List.map_append, List.map_cons, List.map_cons] at hslots
    exact hslots.follows
  next_follows := fun front x hring => by
    have hslots := h.slots
    rw [hring, List.map_append, List.map_singleton] at hslots
    exact hslots.next_follows
  slots_distinct := h.slots.nodup
  newest_fills := pairwise_left_iff_dropLast.mp h.records.newest_fills
  ordered := h.records.ordered
  counts := h.counts
  cursor := hcursor
  ahead := h.ahead
  stripes := fun st hst =>
    { h.records.stripes st hst with
      filling := fun hfill => by
        obtain ⟨htaken, hretired, hreleased, hpos, hlt, -⟩ := (h.records.stripes st hst).filling hfill
        exact ⟨htaken, hretired, hreleased, hpos, hlt, hcursor.trans (h.records.cursorOf_filling hst hfill)⟩ }

end Sys2Proof.Machine
end

section
/-! PROOF. The Stripe Store stays in order (O12): what a ring keeps where records leave it or are marked, and what its
order sees of the page queue. -/

namespace Sys2Proof.Machine

/-! ### Records that leave, and records that are marked -/

section
variable {ps : List Page} {b : BarId} {ring : List Stripe}

theorem RecordsSound.sublist {ring' : List Stripe} (h : RecordsSound ps b ring) (hsub : ring'.Sublist ring) :
    RecordsSound ps b ring' where
  newest_fills := h.newest_fills.sublist hsub
  ordered := h.ordered.sublist hsub
  stripes := fun st hst => h.stripes st (hsub.subset hst)

theorem RecordsSound.nil (ps : List Page) (b : BarId) : RecordsSound ps b [] :=
  ⟨List.Pairwise.nil, List.Pairwise.nil, fun _ h => nomatch h⟩

/-- A record changed in its marks alone; it may be released. -/
structure Stripe.MarkedTo (x y : Stripe) : Prop where
  page : y.page = x.page
  index : y.index = x.index
  state : y.state = x.state
  slot : y.slot = x.slot
  released : y.released = false → x.released = false

theorem RecordsSound.map {f : Stripe → Stripe} (h : RecordsSound ps b ring)
    (hf : ∀ st ∈ ring, st.MarkedTo (f st)) {qs : List Page}
    (hbefore : ∀ x ∈ ring, ∀ y ∈ ring, (f x).released = false → (f y).released = false → x.before ps y →
      (f x).before qs (f y))
    (hs : ∀ st ∈ ring, StripeSound qs b (f st)) : RecordsSound qs b (ring.map f) where
  newest_fills := by
    rw [List.pairwise_map]
    refine h.newest_fills.imp_of_mem fun {x y} hx _ hcomplete => ?_
    exact (hf x hx).state.trans hcomplete
  ordered := by
    rw [List.pairwise_map]
    refine h.ordered.imp_of_mem fun {x y} hx hy hxy hfx hfy => ?_
    exact hbefore x hx y hy hfx hfy (hxy ((hf x hx).released hfx) ((hf y hy).released hfy))
  stripes := List.forall_mem_map.mpr hs

/-- Marks that leave the released marks and the page queue. -/
theorem RecordsSound.map_same {f : Stripe → Stripe} (h : RecordsSound ps b ring)
    (hf : ∀ st ∈ ring, st.MarkedTo (f st)) (hs : ∀ st ∈ ring, StripeSound ps b (f st)) :
    RecordsSound ps b (ring.map f) := by
  refine h.map hf (fun x hx y hy _ _ hxy => ?_) hs
  simpa only [Stripe.before, (hf x hx).page, (hf x hx).index, (hf y hy).page, (hf y hy).index] using hxy

theorem StripeSound.retire {st : Stripe} (h : StripeSound ps b st) (hc : st.state = .complete) :
    StripeSound ps b { st with retired := true } where
  paged hr := by
    obtain ⟨p, hp, hid, hnamed, -, hindex, hrows⟩ := h.paged hr
    exact ⟨p, hp, hid, hnamed, fun _ => rfl, hindex, hrows⟩
  settled := h.settled
  released_retired _ := rfl
  complete := h.complete
  filling hfill := by simp [hc] at hfill
  sum_lt := h.sum_lt

theorem StripeSound.take {st : Stripe} (h : StripeSound ps b st) (hc : st.state = .complete) :
    StripeSound ps b { st with taken := true } :=
  { h with filling := fun hfill => by simp [hc] at hfill }

/-! ### A ring judged for retirement (R64, R65) -/

theorem filter_withdrawn_map (due : Stripe → Bool) (ring : List Stripe) :
    ((ring.map (Stripe.judged due)).filter fun st => !st.withdrawn) =
      (ring.filter fun st => !(st.judged due).withdrawn).map (Stripe.judged due) := List.filter_map

theorem RecordsSound.judged (h : RecordsSound ps b ring) (due : Stripe → Bool) :
    RecordsSound ps b (judgedRing due ring) := by
  refine RecordsSound.sublist ?_ (List.dropWhile_sublist _)
  rw [filter_withdrawn_map]
  refine (h.sublist List.filter_sublist).map_same (fun st _ => ⟨rfl, rfl, rfl, rfl, id⟩) fun st hst => ?_
  obtain ⟨hmem, hkeep⟩ := List.mem_filter.mp hst
  have hsound := h.stripes st hmem
  cases hstate : st.state with
  | complete =>
    rw [Stripe.judged]
    cases due st with
    | true => simpa using hsound.retire hstate
    | false => simpa using hsound
  | filling =>
    have hfree : (st.retired || due st) = false := by simpa [Stripe.withdrawn, Stripe.judged, hstate] using hkeep
    have hretired : st.retired = false := (Bool.or_eq_false_iff.mp hfree).1
    rw [Stripe.judged, hfree, ← hretired]
    exact hsound

theorem map_slot_judged (due : Stripe → Bool) (ring : List Stripe) :
    (ring.map (Stripe.judged due)).map (·.slot) = ring.map (·.slot) := List.map_map

theorem RecordsSound.judged_slots {first capacity : Nat} {next : Option Nat} (h : RecordsSound ps b ring)
    (hslots : SlotsOk first capacity next (ring.map (·.slot))) (due : Stripe → Bool) :
    SlotsOk first capacity (judgedSlot due ring next) ((judgedRing due ring).map (·.slot)) := by
  refine SlotsOk.dropWhile_map _ ?_
  rw [filter_withdrawn_map, map_slot_judged, judgedSlot]
  cases hfind : ring.find? fun st => (st.judged due).withdrawn with
  | none =>
    rw [List.filter_eq_self.mpr fun st hst => by simpa using List.find?_eq_none.mp hfind st hst]
    exact hslots
  | some st =>
    have hdrawn : (st.judged due).withdrawn = true :=
      List.find?_some (p := fun st : Stripe => (st.judged due).withdrawn) hfind
    have hfill : st.state = .filling := by
      simp only [Stripe.withdrawn, Bool.and_eq_true, decide_eq_true_eq] at hdrawn
      exact hdrawn.1
    obtain ⟨front, rfl, hfront⟩ := h.filling_last (List.mem_of_find?_eq_some hfind) hfill
    rw [List.filter_append, List.filter_eq_self.mpr fun y hy => by simp [Stripe.withdrawn, Stripe.judged, hfront y hy],
      List.filter_singleton, hdrawn]
    rw [List.map_append] at hslots
    simpa using hslots.withdraw

theorem filter_counted_dropWhile (ring : List Stripe) :
    (ring.dropWhile (·.retired)).filter Stripe.counted = ring.filter Stripe.counted := by
  have hgone : (ring.takeWhile (·.retired)).filter Stripe.counted = [] :=
    List.filter_eq_nil_iff.mpr fun st hst => by
      have := List.mem_takeWhile_imp hst
      simp [Stripe.counted, this]
  conv => rhs; rw [← List.takeWhile_append_dropWhile (p := fun st : Stripe => st.retired) (l := ring)]
  rw [List.filter_append, hgone, List.nil_append]

theorem length_filter_counted_split (q : Stripe → Bool) (ring : List Stripe) :
    (ring.filter Stripe.counted).length =
      (ring.filter fun st => st.counted && q st).length + (ring.filter fun st => st.counted && !q st).length := by
  rw [List.length_eq_length_filter_add q, List.filter_filter, List.filter_filter]
  simp only [Bool.and_comm]

theorem judgedRing_counted (due : Stripe → Bool) (ring : List Stripe) :
    ((judgedRing due ring).filter Stripe.counted).length =
      (ring.filter Stripe.counted).length - (ring.filter fun st => st.counted && due st).length := by
  have hkeep : (((ring.map (Stripe.judged due)).filter fun st => !st.withdrawn).filter Stripe.counted) =
      (ring.map (Stripe.judged due)).filter Stripe.counted := by
    rw [List.filter_filter]
    refine List.filter_congr fun st _ => ?_
    cases hstate : st.state <;> simp [Stripe.counted, Stripe.withdrawn, hstate]
  have hfun : Stripe.counted ∘ Stripe.judged due = fun st => st.counted && !due st := by
    funext st
    show (decide (st.state = .complete) && !st.taken && !(st.retired || due st)) = (st.counted && !due st)
    rw [Bool.not_or, ← Bool.and_assoc]
    rfl
  rw [judgedRing, filter_counted_dropWhile, hkeep, List.filter_map, List.length_map, hfun,
    length_filter_counted_split due]
  omega

end

theorem BarSound.with_cursor {first : Nat} {ps : List Page} {b : BarId} {bs : BarStore} (h : BarSound first ps b bs)
    (c : Option StripeCursor) : BarSound first ps b { bs with cursor := c } := { h with }

theorem BarSound.judged {first : Nat} {ps : List Page} {b : BarId} {s : State} (h : BarSound first ps b (s.bar b)) :
    BarSound first ps b (judgedBar s b) := by
  have htail := onlyTailWithdrawn_of_complete (pairwise_left_iff_dropLast.mp h.records.newest_fills)
    (retirementDue s b)
  have hbar : judgedBar s b = { s.bar b with
      ring := judgedRing (retirementDue s b) (s.bar b).ring
      nextSlot := judgedSlot (retirementDue s b) (s.bar b).ring (s.bar b).nextSlot
      ahead := (s.bar b).ahead - countedLost s b (s.bar b).ring } := by
    rw [judgedBar, judgedRing_eq htail, judgedSlot_eq htail]
  rw [hbar]
  exact ⟨h.records.judged_slots h.slots _, h.threshold_le, h.records.judged _, h.counts,
    by rw [judgedRing_counted, ← h.ahead]; rfl⟩

/-! ### A stripe taken (R63) -/

section
variable {ps : List Page} {b : BarId} {ring : List Stripe}

/-- At most one record of a ring answers to a page and an index. -/
theorem RecordsSound.answering_le_one (h : RecordsSound ps b ring) (page index : Nat) :
    (ring.filter fun st => st.counted && st.is page index).length ≤ 1 := by
  have hnone : (ring.filter fun st => st.counted && st.is page index).Pairwise fun _ _ => False := by
    refine (h.ordered.sublist List.filter_sublist).imp_of_mem fun {x y} hx hy hxy => ?_
    have hxis := (List.mem_filter.mp hx).2
    have hyis := (List.mem_filter.mp hy).2
    simp only [Stripe.is, Bool.and_eq_true, decide_eq_true_eq, Bool.not_eq_true'] at hxis hyis
    obtain ⟨-, ⟨hxpage, hxindex⟩, hxreleased⟩ := hxis
    obtain ⟨-, ⟨hypage, hyindex⟩, hyreleased⟩ := hyis
    have hbefore := hxy hxreleased hyreleased
    rw [Stripe.before, hxpage, hypage, hxindex, hyindex] at hbefore
    omega
  match hlist : ring.filter fun st => st.counted && st.is page index with
  | [] => simp [hlist]
  | [_] => simp [hlist]
  | x :: y :: rest =>
    rw [hlist] at hnone
    exact ((List.pairwise_cons.mp hnone).1 y List.mem_cons_self).elim

theorem take_counted (page index : Nat) (ring : List Stripe) :
    ((ring.map (Stripe.take page index)).filter Stripe.counted).length =
      (ring.filter fun st => st.counted && !st.is page index).length := by
  rw [List.filter_map, List.length_map]
  congr 2
  funext st
  rw [Function.comp_apply, Stripe.take]
  cases his : st.is page index <;> cases hc : st.counted <;> simp [hc]
  simp [Stripe.counted]

theorem take_markedTo (page index : Nat) (st : Stripe) : st.MarkedTo (st.take page index) := by
  unfold Stripe.take
  split <;> exact ⟨rfl, rfl, rfl, rfl, id⟩

theorem StripeSound.take_answering {st : Stripe} (h : StripeSound ps b st) (page index : Nat) :
    StripeSound ps b (st.take page index) := by
  unfold Stripe.take
  split
  next hmatch =>
    refine h.take ?_
    simp only [Stripe.counted, Bool.and_eq_true, decide_eq_true_eq] at hmatch
    obtain ⟨-, ⟨hcomplete, -⟩, -⟩ := hmatch
    exact hcomplete
  next => exact h

end

theorem BarSound.taken {first : Nat} {ps : List Page} {b : BarId} {s : State} (h : BarSound first ps b (s.bar b))
    (page index : Nat) : BarSound first ps b ((takeStripe b page index s).bar b) := by
  rw [takeStripe_bar]
  have hslots : ((s.bar b).ring.map (Stripe.take page index)).map (·.slot) = (s.bar b).ring.map (·.slot) := by
    rw [List.map_map]
    exact List.map_congr_left fun st _ => (take_markedTo page index st).slot
  refine ⟨by rw [hslots]; exact h.slots, h.threshold_le,
    h.records.map_same (fun st _ => take_markedTo page index st)
      (fun st hst => (h.records.stripes st hst).take_answering page index), h.counts, ?_⟩
  have hsplit := length_filter_counted_split (fun st => st.is page index) (s.bar b).ring
  have hone := h.records.answering_le_one page index
  have hahead := h.ahead
  rw [take_counted]
  split
  next hany =>
    obtain ⟨st, hst, hmatch⟩ := List.any_eq_true.mp hany
    have hpos := List.length_pos_of_mem (List.mem_filter (p := fun st : Stripe => st.counted && st.is page index).mpr
      ⟨hst, (Bool.and_comm _ _).trans hmatch⟩)
    show (s.bar b).ahead - 1 = _
    omega
  next hany =>
    have hnil : ((s.bar b).ring.filter fun st => st.counted && st.is page index) = [] :=
      List.filter_eq_nil_iff.mpr fun st hst hmatch =>
        hany (List.any_eq_true.mpr ⟨st, hst, (Bool.and_comm _ _).trans hmatch⟩)
    rw [hnil, List.length_nil] at hsplit
    show (s.bar b).ahead = _
    omega

/-! ### What the order sees of the page queue -/

/-- What the order of bar b's ring sees of a page record. -/
structure PageView where
  id : Nat
  length : Nat
  named : Bool
  done : Bool
  expected : Nat
  complete : Nat

/-- A page record as bar b's ring sees it. -/
def Page.view (b : BarId) (p : Page) : PageView where
  id := p.id
  length := p.length
  named := entry p.bars b
  done := decide (p.state = .done)
  expected := entry p.expected b
  complete := entry p.complete b

/-- A page that the cursor may stand on. -/
def PageView.lacks (v : PageView) : Bool := !v.done && v.named && decide (v.complete < v.expected)

theorem lacksStripes_view (b : BarId) (p : Page) : lacksStripes b p = (p.view b).lacks := by
  cases hstate : p.state <;> simp [lacksStripes, PageView.lacks, Page.view, hstate]

theorem views_of_shelf {ps qs : List Page} (h : qs.map Page.shelf = ps.map Page.shelf) (b : BarId) :
    qs.map (Page.view b) = ps.map (Page.view b) := by
  have hview : ∀ l : List Page, l.map (Page.view b) = (l.map Page.shelf).map fun p : PageShelf =>
      { id := p.id, length := p.length, named := entry p.bars b, done := p.done, expected := entry p.expected b,
        complete := entry p.complete b } := fun l => by
    rw [List.map_map]
    rfl
  rw [hview, hview, h]

section
variable {ps qs : List Page} {b : BarId} (h : qs.map (Page.view b) = ps.map (Page.view b))
include h

theorem exists_view {p : Page} (hp : p ∈ ps) : ∃ q ∈ qs, q.view b = p.view b := by
  have hmem : p.view b ∈ qs.map (Page.view b) := h ▸ List.mem_map_of_mem hp
  simpa using hmem

theorem placeOf_view (id : Nat) : placeOf qs id = placeOf ps id := by
  refine placeOf_congr ?_ id
  have := congrArg (List.map PageView.id) h
  simpa [List.map_map, Function.comp_def, Page.view] using this

theorem find_lacks_view {p : Page} (hp : ps.find? (lacksStripes b) = some p) :
    ∃ q, qs.find? (lacksStripes b) = some q ∧ q.view b = p.view b := by
  have hview : ∀ l : List Page,
      (l.find? (lacksStripes b)).map (Page.view b) = (l.map (Page.view b)).find? PageView.lacks := fun l => by
      rw [List.find?_map]
      congr 2
      exact funext fun p => lacksStripes_view b p
  have hfound := hview qs
  rw [h, ← hview ps, hp, Option.map_some] at hfound
  exact Option.map_eq_some_iff.mp hfound

theorem StripeSound.of_views {st : Stripe} (hs : StripeSound ps b st) : StripeSound qs b st where
  paged hr := by
    obtain ⟨p, hp, hid, hnamed, hdone, hindex, hrows⟩ := hs.paged hr
    obtain ⟨q, hq, hview⟩ := exists_view h hp
    simp only [Page.view, PageView.mk.injEq, decide_eq_decide] at hview
    obtain ⟨eid, elength, enamed, edone, -, ecomplete⟩ := hview
    exact ⟨q, hq, eid.trans hid, enamed.trans hnamed, fun hd => hdone (edone.mp hd),
      fun hc => ecomplete ▸ hindex hc, elength ▸ hrows⟩
  settled hr q hq hplace := by
    obtain ⟨p, hp, hview⟩ := exists_view h.symm hq
    rw [placeOf_view h, placeOf_view h] at hplace
    have hid : p.id = q.id := congrArg PageView.id hview
    rw [lacksStripes_view, ← hview, ← lacksStripes_view]
    exact hs.settled hr p hp (hid ▸ hplace)
  released_retired := hs.released_retired
  complete := hs.complete
  filling hfill := by
    obtain ⟨htaken, hretired, hreleased, hpos, hlt, p, hp, hid, hindex⟩ := hs.filling hfill
    obtain ⟨q, hq, hview⟩ := find_lacks_view h hp
    exact ⟨htaken, hretired, hreleased, hpos, hlt, q, hq, (congrArg PageView.id hview).trans hid,
      (congrArg PageView.complete hview).trans hindex⟩
  sum_lt := hs.sum_lt

theorem RecordsSound.of_views {ring : List Stripe} (hr : RecordsSound ps b ring) : RecordsSound qs b ring where
  newest_fills := hr.newest_fills
  ordered := by simpa only [Stripe.before, placeOf_view h] using hr.ordered
  stripes st hst := (hr.stripes st hst).of_views h

theorem BarSound.of_views {first : Nat} {bs : BarStore} (hb : BarSound first ps b bs) : BarSound first qs b bs where
  slots := hb.slots
  threshold_le := hb.threshold_le
  records := hb.records.of_views h
  counts q hq := by
    obtain ⟨p, hp, hview⟩ := exists_view h.symm hq
    have hcomplete : entry p.complete b = entry q.complete b := congrArg PageView.complete hview
    have hexpected : entry p.expected b = entry q.expected b := congrArg PageView.expected hview
    exact hcomplete ▸ hexpected ▸ hb.counts p hp
  ahead := hb.ahead

theorem cursorOf_view (bs : BarStore) : cursorOf qs bs b = cursorOf ps bs b := by
  cases hp : ps.find? (lacksStripes b) with
  | none =>
    cases hq : qs.find? (lacksStripes b) with
    | none => rw [cursorOf, cursorOf, hp, hq]
    | some q =>
      obtain ⟨p, hp', -⟩ := find_lacks_view h.symm hq
      rw [hp] at hp'
      cases hp'
  | some p =>
    obtain ⟨q, hq, hview⟩ := find_lacks_view h hp
    have hid : q.id = p.id := congrArg PageView.id hview
    have hcomplete : entry q.complete b = entry p.complete b := congrArg PageView.complete hview
    rw [cursorOf_eq hp, cursorOf_eq hq, hid, hcomplete]

end

end Sys2Proof.Machine
end

section
/-! PROOF. The Stripe Store stays in order (O12), continued: what becomes of a ring's order as a page ends, is opened or
released, or counts one more stripe. -/

namespace Sys2Proof.Machine

section
variable {first : Nat} {ps : List Page} {b : BarId} {bs : BarStore} {ring : List Stripe} {st : Stripe}

/-! ### The records of the page queue change -/

/-- A change of a page's record that bar b's ring can stand: its plan stays, and no stripe that was counted complete
lacks again. -/
structure Advances (b : BarId) (p q : Page) : Prop where
  id : q.id = p.id
  bars : q.bars = p.bars
  length : q.length = p.length
  complete_le : entry p.complete b ≤ entry q.complete b
  lacks : lacksStripes b q = true → lacksStripes b p = true

theorem Advances.refl (b : BarId) (p : Page) : Advances b p p := ⟨rfl, rfl, rfl, Nat.le_refl _, fun h => h⟩

section
variable {g : Page → Page} (hg : ∀ p ∈ ps, Advances b p (g p))
include hg

theorem placeOf_map (i : Nat) : placeOf (ps.map g) i = placeOf ps i := by
  refine placeOf_congr ?_ i
  rw [List.map_map]
  exact List.map_congr_left fun p hp => (hg p hp).id

theorem StripeSound.of_map (h : StripeSound ps b st)
    (hdone : st.released = false → ∀ p ∈ ps, p.id = st.page → (p.state = .done → st.retired = true) →
      (g p).state = .done → st.retired = true)
    (hfind : st.state = .filling → (ps.map g).find? (lacksStripes b) = ps.find? (lacksStripes b)) :
    StripeSound (ps.map g) b st where
  paged hr := by
    obtain ⟨p, hp, hid, hnamed, hend, hindex, hrows⟩ := h.paged hr
    have hadv := hg p hp
    exact ⟨g p, List.mem_map_of_mem hp, hadv.id.trans hid, hadv.bars ▸ hnamed, hdone hr p hp hid hend,
      fun hc => (hindex hc).trans_le hadv.complete_le, hadv.length ▸ hrows⟩
  settled hr := List.forall_mem_map.mpr fun q hq hplace => by
    rw [placeOf_map hg, placeOf_map hg, (hg q hq).id] at hplace
    exact Bool.eq_false_iff.mpr fun hlacks => Bool.eq_false_iff.mp (h.settled hr q hq hplace) ((hg q hq).lacks hlacks)
  released_retired := h.released_retired
  complete := h.complete
  filling hfill := hfind hfill ▸ h.filling hfill
  sum_lt := h.sum_lt

theorem RecordsSound.of_map (h : RecordsSound ps b ring)
    (hdone : ∀ st ∈ ring, st.released = false → ∀ p ∈ ps, p.id = st.page → (p.state = .done → st.retired = true) →
      (g p).state = .done → st.retired = true)
    (hfind : ∀ st ∈ ring, st.state = .filling → (ps.map g).find? (lacksStripes b) = ps.find? (lacksStripes b)) :
    RecordsSound (ps.map g) b ring where
  newest_fills := h.newest_fills
  ordered := by simpa only [Stripe.before, placeOf_map hg] using h.ordered
  stripes st hst := (h.stripes st hst).of_map hg (hdone st hst) (hfind st hst)

end

/-! ### A page ends (R42, R44, R45) -/

/-- A page that has ended. -/
def Page.closed (p : Page) : Page := { p with state := .done }

theorem closed_lacks (p : Page) : lacksStripes b p.closed = false := by simp [lacksStripes, Page.closed]

theorem advances_closed (id : Nat) (p : Page) : Advances b p (if p.id = id then p.closed else p) := by
  split
  · exact ⟨rfl, rfl, rfl, Nat.le_refl _, fun h => by simp [closed_lacks] at h⟩
  · exact .refl b p

theorem find_lacks_close {id : Nat} {p : Page} (hp : ps.find? (lacksStripes b) = some p) (hne : p.id ≠ id) :
    (changePage id Page.closed ps).find? (lacksStripes b) = some p := by
  obtain ⟨hlacks, front, back, rfl, hfront⟩ := List.find?_eq_some_iff_append.mp hp
  rw [changePage, List.map_append, List.map_cons, if_neg hne, List.find?_eq_some_iff_append]
  refine ⟨hlacks, _, _, rfl, List.forall_mem_map.mpr fun q hq => ?_⟩
  have hnot := hfront q hq
  rw [Bool.not_eq_true'] at hnot ⊢
  exact Bool.eq_false_iff.mpr fun h => Bool.eq_false_iff.mp hnot ((advances_closed id q).lacks h)

/-- A page ends whose stripes in the ring are retired. -/
theorem BarSound.close {id : Nat} (h : BarSound first ps b bs)
    (hretired : ∀ st ∈ bs.ring, st.released = false → st.page = id → st.retired = true) :
    BarSound first (changePage id Page.closed ps) b bs where
  slots := h.slots
  threshold_le := h.threshold_le
  records := by
    refine h.records.of_map (fun p _ => advances_closed id p) (fun st hst hr p _ hpage hold hnew => ?_)
      fun st hst hfill => ?_
    · by_cases hid : p.id = id
      · exact hretired st hst hr (hpage.symm.trans hid)
      · rw [if_neg hid] at hnew
        exact hold hnew
    · obtain ⟨-, hnot, hreleased, -, -, p, hp, hid, -⟩ := (h.records.stripes st hst).filling hfill
      have hne : p.id ≠ id := fun he => by
        have := hretired st hst hreleased (hid.symm.trans he)
        simp [hnot] at this
      exact (find_lacks_close hp hne).trans hp.symm
  counts := List.forall_mem_map.mpr fun p hp => by
    split
    · exact h.counts p hp
    · exact h.counts p hp
  ahead := h.ahead

/-! ### A page is opened (R35, R37) -/

theorem StripeSound.page_mem (h : StripeSound ps b st) (hr : st.released = false) : ∃ p ∈ ps, p.id = st.page := by
  obtain ⟨p, hp, hid, -⟩ := h.paged hr
  exact ⟨p, hp, hid⟩

section
variable {p : Page} (hfresh : ∀ q ∈ ps, q.id ≠ p.id)
include hfresh

theorem StripeSound.append (h : StripeSound ps b st) : StripeSound (ps ++ [p]) b st where
  paged hr := by
    obtain ⟨q, hq, hrest⟩ := h.paged hr
    exact ⟨q, List.mem_append_left _ hq, hrest⟩
  settled hr q hq hplace := by
    obtain ⟨o, ho, hid⟩ := h.page_mem hr
    rw [← hid] at hplace
    rcases List.mem_append.mp hq with hq | hq
    · rw [placeOf_append_mem hq, placeOf_append_mem ho, hid] at hplace
      exact h.settled hr q hq hplace
    · rw [List.mem_singleton.mp hq, placeOf_append hfresh] at hplace
      exact absurd (placeOf_append_lt (rest := [p]) ho) (by omega)
  released_retired := h.released_retired
  complete := h.complete
  filling hfill := by
    obtain ⟨htaken, hretired, hreleased, hpos, hlt, o, ho, hrest⟩ := h.filling hfill
    exact ⟨htaken, hretired, hreleased, hpos, hlt, o, by rw [List.find?_append, ho]; rfl, hrest⟩
  sum_lt := h.sum_lt

theorem RecordsSound.append (h : RecordsSound ps b ring) : RecordsSound (ps ++ [p]) b ring where
  newest_fills := h.newest_fills
  ordered := h.ordered.imp_of_mem fun {x y} hx hy hxy hxr hyr => by
    obtain ⟨o, ho, hox⟩ := (h.stripes x hx).page_mem hxr
    obtain ⟨q, hq, hqy⟩ := (h.stripes y hy).page_mem hyr
    have := hxy hxr hyr
    rwa [Stripe.before, ← hox, ← hqy, ← placeOf_append_mem ho, ← placeOf_append_mem hq, hox, hqy] at this
  stripes st hst := (h.stripes st hst).append hfresh

theorem BarSound.append (h : BarSound first ps b bs) (hcount : entry p.complete b ≤ entry p.expected b) :
    BarSound first (ps ++ [p]) b bs where
  slots := h.slots
  threshold_le := h.threshold_le
  records := h.records.append hfresh
  counts := List.forall_mem_append.mpr ⟨h.counts, by simpa using hcount⟩
  ahead := h.ahead

end

/-! ### A DONE page is released (R47) -/

/-- A record as its page's release leaves it. -/
def Stripe.releasedBy (id : Nat) (st : Stripe) : Stripe := if st.page = id then { st with released := true } else st

theorem releasedBy_markedTo (id : Nat) (st : Stripe) : st.MarkedTo (st.releasedBy id) := by
  unfold Stripe.releasedBy
  split
  · exact ⟨rfl, rfl, rfl, rfl, fun h => nomatch h⟩
  · exact ⟨rfl, rfl, rfl, rfl, fun h => h⟩

theorem releasedBy_counted (id : Nat) (st : Stripe) : (st.releasedBy id).counted = st.counted := by
  unfold Stripe.releasedBy
  split <;> rfl

theorem releasedBy_of_unreleased {id : Nat} (h : (st.releasedBy id).released = false) :
    st.releasedBy id = st ∧ st.page ≠ id := by
  unfold Stripe.releasedBy at h ⊢
  split at h
  · exact nomatch h
  · rename_i hne
    exact ⟨if_neg hne, hne⟩

section
variable {id : Nat} (hdone : ∀ p ∈ ps, p.id = id → p.state = .done)
include hdone

theorem find_lacks_filter : (ps.filter fun p => p.id ≠ id).find? (lacksStripes b) = ps.find? (lacksStripes b) := by
  rw [List.find?_filter]
  refine List.find?_congr fun p hp => ?_
  by_cases hid : p.id = id
  · simp [hid, lacksStripes, hdone p hp hid]
  · simp [hid]

theorem StripeSound.release (h : StripeSound ps b st) :
    StripeSound (ps.filter fun p => p.id ≠ id) b (st.releasedBy id) where
  paged hr := by
    obtain ⟨he, hne⟩ := releasedBy_of_unreleased hr
    rw [he] at hr ⊢
    obtain ⟨p, hp, hid, hrest⟩ := h.paged hr
    exact ⟨p, List.mem_filter.mpr ⟨hp, by simpa [hid] using hne⟩, hid, hrest⟩
  settled hr q hq hplace := by
    obtain ⟨he, hne⟩ := releasedBy_of_unreleased hr
    rw [he] at hr hplace
    obtain ⟨hq, hqid⟩ := List.mem_filter.mp hq
    exact h.settled hr q hq ((placeOf_filter_lt (by simpa using hqid) hne).mp hplace)
  released_retired hr := by
    unfold Stripe.releasedBy at hr ⊢
    split at hr
    next hid =>
      rw [if_pos hid]
      cases hold : st.released with
      | true => exact h.released_retired hold
      | false =>
        obtain ⟨p, hp, hpid, -, hretired, -⟩ := h.paged hold
        exact hretired (hdone p hp (hpid.trans hid))
    next hid =>
      rw [if_neg hid]
      exact h.released_retired hr
  complete hc := by
    unfold Stripe.releasedBy at hc ⊢
    split at hc <;> split <;> exact h.complete hc
  filling hfill := by
    rw [(releasedBy_markedTo id st).state] at hfill
    obtain ⟨htaken, hretired, hreleased, hpos, hlt, p, hp, hid, hindex⟩ := h.filling hfill
    have hne : st.page ≠ id := fun he => by
      have hstate := hdone p (List.mem_of_find?_eq_some hp) (hid.trans he)
      have hlacks := List.find?_some hp
      simp [lacksStripes, hstate] at hlacks
    rw [Stripe.releasedBy, if_neg hne, find_lacks_filter hdone]
    exact ⟨htaken, hretired, hreleased, hpos, hlt, p, hp, hid, hindex⟩
  sum_lt := by
    unfold Stripe.releasedBy
    split <;> exact h.sum_lt

theorem BarSound.release (h : BarSound first ps b bs) :
    BarSound first (ps.filter fun p => p.id ≠ id) b (markReleased id bs) where
  slots := by
    have hslots : (bs.ring.map (Stripe.releasedBy id)).map (·.slot) = bs.ring.map (·.slot) := by
      rw [List.map_map]
      exact List.map_congr_left fun st _ => (releasedBy_markedTo id st).slot
    exact (congrArg (SlotsOk first bs.capacity bs.nextSlot) hslots).mpr h.slots
  threshold_le := h.threshold_le
  records := by
    refine h.records.map (fun st _ => releasedBy_markedTo id st) (fun x _ y _ hx hy hxy => ?_)
      fun st hst => (h.records.stripes st hst).release hdone
    obtain ⟨hxe, hxne⟩ := releasedBy_of_unreleased hx
    obtain ⟨hye, hyne⟩ := releasedBy_of_unreleased hy
    rwa [hxe, hye, Stripe.before, placeOf_filter_lt hxne hyne]
  counts p hp := h.counts p (List.mem_filter.mp hp).1
  ahead := by
    have hcounted : ((bs.ring.map (Stripe.releasedBy id)).filter Stripe.counted).length =
        (bs.ring.filter Stripe.counted).length := by
      rw [List.filter_map, List.length_map]
      congr 2
      exact funext fun st => releasedBy_counted id st
    exact h.ahead.trans hcounted.symm

end

end

end Sys2Proof.Machine
end

section
/-! PROOF. The Stripe Store stays in order (O12), continued: the whole store, and every event at rows. -/

namespace Sys2Proof.Machine

/-! ### The store in order -/

/-- The rings in order over a page queue of distinct ids; the stripe cursors may still have to be set anew. -/
structure RingsSound (s : State) : Prop where
  ids : (s.pages.map (·.id)).Nodup
  capacities : (allBars.map fun b => (s.bar b).capacity).sum ≤ 1024
  rings_online : ∀ b : BarId, (s.bar b).ring ≠ [] → s.control.op = .online
  bars : ∀ b : BarId, BarSound (firstSlot s.store.bars b) s.pages b (s.bar b)

/-- The Stripe Store in order over a page queue of distinct ids. -/
structure StoreSound (s : State) : Prop extends RingsSound s where
  cursors : ∀ b : BarId, (s.bar b).cursor = cursorOf s.pages (s.bar b) b

theorem storeSound_of_storeOk {s : State} (h : StoreOk s) (hids : (s.pages.map (·.id)).Nodup) : StoreSound s :=
  ⟨⟨hids, h.capacities, h.rings_online, fun b => barSound_of_barOk (h.bars b)⟩, fun b => (h.bars b).cursor⟩

theorem StoreSound.storeOk {s : State} (h : StoreSound s) : StoreOk s :=
  ⟨h.capacities, h.rings_online, fun b => barOk_of_barSound (h.bars b) (h.cursors b)⟩

theorem firstSlot_congr {s t : State} (h : t.capacities = s.capacities) (b : BarId) :
    firstSlot t.store.bars b = firstSlot s.store.bars b := by
  rw [firstSlot, firstSlot]
  congr 1
  exact List.map_congr_left fun x _ => State.capacity_eq h x

/-- Setting the cursors anew puts the store in order. -/
theorem RingsSound.refreshCursors {s : State} (h : RingsSound s) : StoreSound (refreshCursors s) where
  ids := (refreshCursors_pages s).symm ▸ h.ids
  capacities := by simpa only [State.capacity_eq (refreshCursors_capacities s)] using h.capacities
  rings_online b := by
    rw [refreshCursors_bar]
    exact h.rings_online b
  bars b := by
    rw [firstSlot_congr (refreshCursors_capacities s), refreshCursors_bar, refreshCursors_pages]
    exact (h.bars b).with_cursor _
  cursors b := by
    rw [refreshCursors_bar, refreshCursors_pages]
    rfl

/-- Where the operating state and the capacities stay and no empty ring is filled, the bars' order and their cursors
make the store's. -/
theorem StoreSound.next {s t : State} (h : StoreSound s) (hop : t.control.op = s.control.op)
    (hcap : t.capacities = s.capacities) (hids : (t.pages.map (·.id)).Nodup)
    (hrings : ∀ b, (s.bar b).ring = [] → (t.bar b).ring = [])
    (hbars : ∀ b, BarSound (firstSlot s.store.bars b) t.pages b (t.bar b))
    (hcursors : ∀ b, (t.bar b).cursor = cursorOf t.pages (t.bar b) b) : StoreSound t where
  ids := hids
  capacities := by simpa only [State.capacity_eq hcap] using h.capacities
  rings_online b hne := hop.trans (h.rings_online b fun hnil => hne (hrings b hnil))
  bars b := firstSlot_congr hcap b ▸ hbars b
  cursors := hcursors

section
variable {s t : State}

theorem StoreSound.of_shelf (h : StoreSound s) (hs : t.shelf = s.shelf) : StoreSound t := by
  have hbar := State.bar_congr (bars_of_shelf hs)
  have hviews := views_of_shelf (pages_of_shelf hs)
  refine h.next (op_of_shelf hs) (capacities_eq_of_bars (bars_of_shelf hs)) ?_ (fun b hnil => by rwa [hbar])
    (fun b => ?_) fun b => ?_
  · have hids := congrArg (List.map PageShelf.id) (pages_of_shelf hs)
    simp only [List.map_map, Function.comp_def, Page.shelf] at hids
    rw [hids]
    exact h.ids
  · rw [hbar]
    exact (h.bars b).of_views (hviews b)
  · rw [hbar, cursorOf_view (hviews b)]
    exact h.cursors b

theorem StoreSound.evaluateStarve (h : StoreSound s) : StoreSound (evaluateStarve s) := by
  have hbar := State.bar_congr (evaluateStarve_bars s)
  have hpages := evaluateStarve_pages s
  refine h.next (congrArg _ (rowEvent_evaluateStarve s).control) (evaluateStarve_capacities s) (hpages ▸ h.ids)
    (fun b hnil => by rwa [hbar]) (fun b => ?_) fun b => ?_
  · rw [hbar, hpages]
    exact h.bars b
  · rw [hbar, hpages]
    exact h.cursors b

/-! ### A stripe taken, and a bar judged for retirement -/

theorem takeStripe_bar_of_ne (b : BarId) {x : BarId} (hx : b ≠ x) (page index : Nat) (s : State) :
    (takeStripe b page index s).bar x = s.bar x := by
  unfold takeStripe
  split
  · rw [State.bar_congr (evaluateStarve_bars _), State.bar_updateBar, if_neg hx]
  · rfl

theorem takeStripe_pages (b : BarId) (page index : Nat) (s : State) :
    (takeStripe b page index s).pages = s.pages := by
  unfold takeStripe
  split
  · exact evaluateStarve_pages _
  · rfl

theorem take_untaken (page index : Nat) (st : Stripe) : (st.take page index).untaken = st.untaken := by
  unfold Stripe.take
  split <;> rfl

theorem StoreSound.take (h : StoreSound s) (b : BarId) (page index : Nat) :
    StoreSound (takeStripe b page index s) := by
  have hpages := takeStripe_pages b page index s
  refine h.next (congrArg _ (rowEvent_takeStripe b page index s).control) (takeStripe_capacities b page index s)
    (hpages ▸ h.ids) (fun x hnil => ?_) (fun x => ?_) fun x => ?_ <;> by_cases hx : b = x
  · subst hx
    rw [takeStripe_bar, hnil]
    rfl
  · rwa [takeStripe_bar_of_ne b hx]
  · subst hx
    rw [hpages]
    exact (h.bars b).taken page index
  · rw [takeStripe_bar_of_ne b hx, hpages]
    exact h.bars x
  · subst hx
    rw [hpages, takeStripe_bar]
    refine (h.cursors b).trans (cursorOf_core rfl ?_ b).symm
    rw [List.map_map]
    exact List.map_congr_left fun st _ => take_untaken page index st
  · rw [takeStripe_bar_of_ne b hx, hpages]
    exact h.cursors x

theorem judgedBar_ring_nil {b : BarId} (h : (s.bar b).ring = []) : (judgedBar s b).ring = [] := by
  rw [judgedBar, h]
  rfl

theorem StoreSound.judge (h : StoreSound s) (b : BarId) : StoreSound (judgeRetirement b s) := by
  have hpages := judgeRetirement_pages b s
  refine h.next (congrArg _ (rowEvent_judgeRetirement b s).control) (judgeRetirement_capacities b s)
    (hpages ▸ h.ids) (fun x hnil => ?_) (fun x => ?_) fun x => ?_ <;> rw [judgeRetirement_bar] <;>
    by_cases hx : b = x
  · subst hx
    rw [if_pos rfl]
    exact judgedBar_ring_nil hnil
  · rwa [if_neg hx]
  · subst hx
    rw [if_pos rfl, hpages]
    exact (h.bars b).judged.with_cursor _
  · rw [if_neg hx, hpages]
    exact h.bars x
  · subst hx
    rw [if_pos rfl, hpages]
    rfl
  · rw [if_neg hx, hpages]
    exact h.cursors x

/-! ### A page starts, and a page ends -/

theorem eq_of_ids {ps : List Page} (hids : (ps.map (·.id)).Nodup) {p q : Page} (hp : p ∈ ps) (hq : q ∈ ps)
    (h : q.id = p.id) : q = p := List.inj_on_of_nodup_map hids hq hp h

theorem StoreSound.start (h : StoreSound s) {p : Page} (hp : p ∈ s.pages) (hopen : p.state = .opened) (T S : Nat) :
    StoreSound (s.updatePage p.id fun q => { q with state := .started, trigger := some T, start := some S }) := by
  refine h.of_shelf (updatePage_shelf s p.id fun q hq hid => ?_)
  obtain rfl := eq_of_ids h.ids hp hq hid
  simp [Page.shelf, hopen]

theorem BarSound.judgeRetirements {first : Nat} {ps : List Page} {x : BarId} (bs : List BarId)
    (h : BarSound first ps x (s.bar x)) : BarSound first ps x ((judgeRetirements bs s).bar x) := by
  induction bs generalizing s with
  | nil => exact h
  | cons b bs ih =>
    refine ih ?_
    rw [judgeRetirement_bar]
    split
    · subst_vars
      exact h.judged.with_cursor _
    · exact h

theorem BarSound.storePageEnd {first : Nat} {ps : List Page} {x : BarId} (bars : Vector Bool 4)
    (h : BarSound first ps x (s.bar x)) : BarSound first ps x ((storePageEnd bars s).bar x) := by
  have hbar : (Machine.storePageEnd bars s).bar x = _ :=
    (State.bar_congr (evaluateStarve_bars _) x).trans (refreshCursors_bar x _)
  rw [hbar]
  exact (h.judgeRetirements _).with_cursor _

section
variable {p : Page} {u : State} (hdone : PageDone p.id s u)
include hdone

theorem pageDone_shelf : u.pages.map Page.shelf = (changePage p.id Page.closed s.pages).map Page.shelf :=
  pages_of_shelf hdone

theorem pageDone_ids : u.pages.map (·.id) = s.pages.map (·.id) := by
  have hids := congrArg (List.map PageShelf.id) (pageDone_shelf hdone)
  rw [List.map_map, List.map_map] at hids
  refine hids.trans ?_
  rw [changePage, List.map_map]
  exact List.map_congr_left fun q _ => (advances_closed (b := 0) p.id q).id

theorem pageDone_bars : u.store.bars = s.store.bars := bars_of_shelf (s := s.updatePage p.id Page.closed) hdone

theorem pageDone_op : u.control.op = s.control.op := op_of_shelf (s := s.updatePage p.id Page.closed) hdone

/-- The page that has ended is found DONE. -/
theorem pageDone_find (hp : p.id ∈ s.pages.map (·.id)) : ∃ q, findPage u.pages p.id = some q ∧ q.state = .done := by
  obtain ⟨q, hq⟩ : ∃ q, findPage u.pages p.id = some q := by
    rw [← pageDone_ids hdone] at hp
    obtain ⟨o, ho, hid⟩ := List.mem_map.mp hp
    rw [← Option.isSome_iff_exists, findPage, List.find?_isSome]
    exact ⟨o, ho, by simpa using hid⟩
  refine ⟨q, hq, ?_⟩
  have hmem : q.shelf ∈ (changePage p.id Page.closed s.pages).map Page.shelf :=
    pageDone_shelf hdone ▸ List.mem_map_of_mem (List.mem_of_find?_eq_some hq)
  rw [changePage, List.map_map] at hmem
  obtain ⟨o, -, ho⟩ := List.mem_map.mp hmem
  have hid : (if o.id = p.id then o.closed else o).id = q.id := congrArg PageShelf.id ho
  have hstate := congrArg PageShelf.done ho
  rw [(advances_closed (b := 0) p.id o).id, findPage_id hq] at hid
  rw [Function.comp_apply, if_pos hid] at hstate
  simpa [Page.shelf, Page.closed] using hstate.symm

variable (h : StoreSound s) (hp : ∃ q ∈ s.pages, q.id = p.id ∧ q.bars = p.bars)
include h hp

/-- Once the page has ended every stripe of it in a ring is retired: a bar that the page names has been judged, and any
other held none. -/
theorem pageDone_retired (x : BarId) : ∀ st ∈ ((storePageEnd p.bars u).bar x).ring, st.released = false →
    st.page = p.id → st.retired = true := by
  intro st hst hr hpage
  obtain ⟨q, hq, hqid, hqbars⟩ := hp
  have hend := pageEndStep_storePageEnd p.bars u
  have hbar : u.bar x = s.bar x := State.bar_congr (pageDone_bars hdone) x
  cases hnamed : entry p.bars x with
  | true =>
    have htail := onlyTailWithdrawn_of_complete
      (pairwise_left_iff_dropLast.mp (h.bars x).records.newest_fills) (retirementDue u x)
    rw [← hbar] at htail
    rw [(hend.judged x hnamed htail).1] at hst
    have hmark := (mem_judgedRing (markFree_retirementDue u x) hst).1
    obtain ⟨o, ho, hostate⟩ := pageDone_find hdone (List.mem_map.mpr ⟨q, hq, hqid⟩)
    have hdue : retirementDue u x st = true := by simp [retirementDue, hpage, ho, hostate]
    rw [← hmark]
    simp [Stripe.judged, hdue]
  | false =>
    rw [(hend.kept x hnamed).1, hbar] at hst
    obtain ⟨o, ho, hoid, hobar, -⟩ := ((h.bars x).records.stripes st hst).paged hr
    obtain rfl := eq_of_ids h.ids ho hq (hqid.trans (hpage.symm.trans hoid.symm))
    rw [hqbars, hnamed] at hobar
    cases hobar

theorem StoreSound.pageEnd : StoreSound (storePageEnd p.bars u) := by
  have hend := pageEndStep_storePageEnd p.bars u
  have hbar := State.bar_congr (pageDone_bars hdone)
  have hshelf := pageDone_shelf hdone
  refine h.next ((congrArg _ hend.control).trans (pageDone_op hdone))
    ((storePageEnd_capacities p.bars u).trans (capacities_eq_of_bars (pageDone_bars hdone))) ?_ (fun x hnil => ?_)
    (fun x => ?_) hend.cursor
  · rw [hend.pages, pageDone_ids hdone]
    exact h.ids
  · cases hnamed : entry p.bars x with
    | true =>
      have hring : (u.bar x).ring = [] := (congrArg _ (hbar x)).trans hnil
      rw [(hend.judged x hnamed (by rw [hring]; exact fun _ hst => nomatch hst)).1, hring]
      rfl
    | false =>
      rw [(hend.kept x hnamed).1, hbar]
      exact hnil
  · have hsound : BarSound (firstSlot s.store.bars x) s.pages x (u.bar x) := by
      rw [hbar]
      exact h.bars x
    rw [hend.pages]
    exact ((hsound.storePageEnd p.bars).close (pageDone_retired hdone h hp x)).of_views (views_of_shelf hshelf x)

end

/-- Every event at rows keeps the store in order. -/
theorem StoreStep.sound (k : StoreStep s t) (h : StoreSound s) : StoreSound t := by
  induction k with
  | same hs => exact h.of_shelf hs
  | starve s => exact h.evaluateStarve
  | take b page index s => exact h.take b page index
  | judge b s => exact h.judge b
  | start hp hopen T S => exact h.start hp hopen T S
  | pageEnd hp hdone => exact h.pageEnd hdone hp
  | trans _ _ ih ih' => exact ih' (ih h)

end

end Sys2Proof.Machine
end

section
/-! PROOF. The Stripe Store stays in order (O12), continued: the commands that set the rings up, change the operating
state, or open or release a page. -/

namespace Sys2Proof.Machine

section
variable {s t : State}

/-! ### Empty rings, and the operating state -/

/-- An emptied ring over counts that are in order. -/
theorem barSound_of_empty {first : Nat} {ps : List Page} {b : BarId} {bs : BarStore} (hring : bs.ring = [])
    (hahead : bs.ahead = 0) (hthreshold : bs.threshold ≤ bs.capacity)
    (hnext : bs.nextSlot = if bs.capacity = 0 then none else some first)
    (hcounts : ∀ p ∈ ps, entry p.complete b ≤ entry p.expected b) : BarSound first ps b bs where
  slots := by
    rw [hring, hnext]
    exact slotsOk_nil first bs.capacity
  threshold_le := hthreshold
  records := by
    rw [hring]
    exact RecordsSound.nil ps b
  counts := hcounts
  ahead := by
    rw [hring]
    exact hahead

/-- Bars and pages stay, and rings that hold stripes have the part ONLINE. -/
theorem StoreSound.of_op (h : StoreSound s) (hbars : t.store.bars = s.store.bars) (hpages : t.pages = s.pages)
    (hop : ∀ b, (s.bar b).ring ≠ [] → t.control.op = .online) : StoreSound t where
  ids := hpages ▸ h.ids
  capacities := by simpa only [State.bar_congr hbars] using h.capacities
  rings_online b := by
    rw [State.bar_congr hbars]
    exact hop b
  bars b := by
    rw [State.bar_congr hbars, hbars, hpages]
    exact h.bars b
  cursors b := by
    rw [State.bar_congr hbars, hpages]
    exact h.cursors b

/-- Outside ONLINE the rings are empty, so any other operating state may follow. -/
theorem StoreSound.off_of_off (h : StoreSound s) (hoff : s.control.op ≠ .online) (hbars : t.store.bars = s.store.bars)
    (hpages : t.pages = s.pages) : StoreSound t :=
  h.of_op hbars hpages fun b hne => absurd (h.rings_online b hne) hoff

theorem StoreSound.same_op (h : StoreSound s) (hbars : t.store.bars = s.store.bars) (hpages : t.pages = s.pages)
    (hop : t.control.op = s.control.op) : StoreSound t :=
  h.of_op hbars hpages fun b hne => hop.trans (h.rings_online b hne)

theorem StoreSound.link (h : StoreSound s) (l : Link) : StoreSound { s with link := l } := h.same_op rfl rfl rfl

theorem storeSound_takeRequest {judge : State → State × Answer} (h : StoreSound s)
    (hj : ∀ u, StoreSound u → StoreSound (judge u).1) (code : Byte) (ps : List Byte) :
    StoreSound (takeRequest code ps judge s) :=
  takeRequest_keeps (P := StoreSound) (fun _ l h => h.link l) h (fun l => hj _ (h.link l)) code ps

/-! ### Power-on reset, GO ONLINE and its probes -/

theorem storeSound_powerOn (memory : Memory) (damage : List (Nat × Damage)) (a b g : Bool) :
    StoreSound (State.powerOn memory damage a b g) := by
  have hbar : ∀ x : BarId, (State.powerOn memory damage a b g).bar x = BarStore.reset := fun x => entry_replicate _ x
  refine ⟨⟨List.nodup_nil, ?_, fun x hne => absurd (by rw [hbar]; rfl) hne, fun x => ?_⟩, fun x => ?_⟩
  · simp only [hbar]
    decide
  · rw [hbar]
    exact barSound_of_empty rfl rfl (Nat.le_refl _) rfl fun _ h => nomatch h
  · rw [hbar]
    rfl

theorem storeSound_judgeGoOnline (h : StoreSound s) (ps : List Byte) : StoreSound (judgeGoOnline ps s).1 := by
  unfold judgeGoOnline
  split
  · exact h
  · rename_i hop
    have hoff : s.control.op ≠ .online := by
      rw [not_not.mp hop]
      decide
    repeat' split
    on_goal 4 => exact h.off_of_off hoff rfl rfl
    all_goals exact h

/-- A probe that GO ONLINE sent is answered in STARTING; the outcome of one that CLEAR HEAD FAULT sent is an event at
rows. -/
theorem storeSound_endProbe (h : StoreSound s) {w : Work} (hfits : w.fits s.control.op = true) (env : Outside)
    (p : PortId) (cause : Option FaultCause) (answer : Option BriefStatus) :
    StoreSound (endProbe env p w cause answer s) := by
  unfold endProbe
  split
  · have hoff : s.control.op ≠ .online := fun hon => by simp [Work.fits, hon] at hfits
    exact h.off_of_off hoff rfl rfl
  · have hoff : s.control.op ≠ .online := fun hon => by simp [Work.fits, hon] at hfits
    unfold goOnlineNext
    dsimp only
    split <;> exact h.off_of_off hoff rfl rfl
  · exact h.same_op rfl rfl rfl
  · exact (storeStep_recovered env p _ s).sound h
  · exact h

/-! ### GO OFFLINE, CLEAR and the end of DRAINING -/

/-- The teardown empties the rings and the page queue, whatever the operating state. -/
theorem storeSound_teardown (h : StoreSound s) (op : OpState) : StoreSound (teardown (s.withOp op)) := by
  have hbar : ∀ b, (teardown (s.withOp op)).bar b = tornDownBar s.store.bars b := fun b => by
    rw [teardown_eq]
    exact entry_ofFn _ b
  have hcap : (teardown (s.withOp op)).capacities = s.capacities := capacities_eq_iff.mpr fun b => by
    rw [hbar]
    rfl
  have hpages : (teardown (s.withOp op)).pages = [] := by rw [teardown_eq]
  refine ⟨⟨by rw [hpages]; exact List.nodup_nil, ?_, fun b hne => absurd (by rw [hbar]; rfl) hne, fun b => ?_⟩,
    fun b => ?_⟩
  · simpa only [State.capacity_eq hcap] using h.capacities
  · rw [firstSlot_congr hcap, hbar, hpages]
    exact barSound_of_empty rfl rfl (h.bars b).threshold_le rfl fun _ hp => nomatch hp
  · rw [hbar, hpages]
    rfl

theorem storeSound_judgeGoOffline (h : StoreSound s) (ps : List Byte) : StoreSound (judgeGoOffline ps s).1 := by
  unfold judgeGoOffline
  split
  · exact h
  · split
    · exact h
    · exact storeSound_teardown h .draining

theorem storeSound_judgeClear (h : StoreSound s) (ps : List Byte) : StoreSound (judgeClear ps s).1 := by
  unfold judgeClear
  split
  · exact h
  · split
    · exact h
    · split
      · exact storeSound_teardown h .draining
      · exact h.same_op (t := clearRecords s) rfl rfl rfl

theorem storeSound_enterSetup (h : StoreSound s) (hoff : s.control.op ≠ .online) (clear : Bool) (count : Nat) :
    StoreSound (enterSetup clear count s) := by
  cases clear <;> exact h.off_of_off hoff rfl rfl

/-! ### Pages opened and released -/

theorem storeSound_openPage (h : StoreSound s) {p : Page} (hfresh : ∀ q ∈ s.pages, q.id ≠ p.id)
    (hcount : ∀ b : BarId, entry p.complete b = 0) :
    StoreSound (refreshCursors { s with pages := s.pages ++ [p] }) := by
  refine RingsSound.refreshCursors ⟨?_, h.capacities, h.rings_online, fun b => ?_⟩
  · have hids := h.ids
    simp only [List.map_append, List.map_singleton]
    refine hids.append (List.nodup_singleton _) ?_
    simpa [List.disjoint_singleton] using hfresh
  · exact (h.bars b).append hfresh (by rw [hcount]; exact Nat.zero_le _)

theorem storeSound_judgeOpenPage (h : StoreSound s) (ps : List Byte) : StoreSound (judgeOpenPage ps s).1 := by
  unfold judgeOpenPage
  split
  · exact h
  · cases hpass : openFailure ps s with
    | some check => exact h
    | none =>
      dsimp only
      split
      · exact h
      · rw [reply_fst]
        refine storeSound_openPage h ?_ fun b => entry_replicate 0 b
        simp only [openFailure, check_eq_none] at hpass
        obtain ⟨-, -, -, -, hfind, -⟩ := hpass
        simpa [findPage, newPage] using hfind

/-- The part with a page's record removed and its stripes marked, before the cursors are set anew. -/
def pageRemoved (id : Nat) (s : State) : State :=
  { s with
    pages := s.pages.filter fun p => p.id ≠ id
    store := { s.store with bars := s.store.bars.map (markReleased id) } }

theorem pageRemoved_bar (id : Nat) (s : State) (b : BarId) : (pageRemoved id s).bar b = markReleased id (s.bar b) :=
  entry_map _ _ b

theorem storeSound_removePage (h : StoreSound s) {p : Page} (hp : p ∈ s.pages) (hdone : p.state = .done) :
    StoreSound (removePage p.id s) := by
  have hcap : (pageRemoved p.id s).capacities = s.capacities := capacities_eq_iff.mpr fun b => by
    rw [pageRemoved_bar]
    rfl
  refine RingsSound.refreshCursors (s := pageRemoved p.id s) ⟨?_, ?_, fun b hne => ?_, fun b => ?_⟩
  · exact h.ids.sublist (List.filter_sublist.map _)
  · simpa only [State.capacity_eq hcap] using h.capacities
  · refine h.rings_online b fun hnil => hne ?_
    rw [pageRemoved_bar, markReleased, hnil]
    rfl
  · rw [firstSlot_congr hcap, pageRemoved_bar]
    exact (h.bars b).release fun q hq hid => eq_of_ids h.ids hp hq hid ▸ hdone

theorem storeSound_judgeReleasePage (h : StoreSound s) (ps : List Byte) : StoreSound (judgeReleasePage ps s).1 := by
  unfold judgeReleasePage
  split
  · exact h
  · split
    · exact h
    · split
      · exact h
      · rename_i p hp
        split
        · exact h
        · rename_i hdone
          exact storeSound_removePage h (List.mem_of_find?_eq_some hp) (not_not.mp hdone)

/-! ### Ring sizes and the starve threshold -/

theorem resizedBars_entry (ps : List Byte) (bars : Vector BarStore 4) (b : BarId) :
    entry (resizedBars ps bars) b = { entry bars b with
      capacity := sizeField ps b
      nextSlot := if sizeField ps b = 0 then none else some (firstSlot (resizedBars ps bars) b)
      ring := []
      ahead := 0
      threshold := min (entry bars b).threshold (sizeField ps b) } := by
  simp only [resizedBars, entry_ofFn, emptyNextSlot, firstSlot, resizeBar]

/-- In SETUP the rings are empty already, so the cursors stand as they would over the new runs. -/
theorem storeSound_resized (h : StoreSound s) (hoff : s.control.op ≠ .online) {ps : List Byte}
    (hsizes : sizesFailure ps = none) :
    StoreSound { s with store := { s.store with bars := resizedBars ps s.store.bars } } := by
  have hbar : ∀ b, ({ s with store := { s.store with bars := resizedBars ps s.store.bars } } : State).bar b = _ :=
    resizedBars_entry ps s.store.bars
  have hnil : ∀ b, (s.bar b).ring = [] := fun b => by_contra fun hne => hoff (h.rings_online b hne)
  refine ⟨⟨h.ids, ?_, fun b hne => absurd (by rw [hbar]) hne, fun b => ?_⟩, fun b => ?_⟩
  · simp only [sizesFailure, check_eq_none] at hsizes
    obtain ⟨-, -, hsum, -⟩ := hsizes
    simp only [hbar]
    exact not_lt.mp hsum
  · rw [hbar]
    exact barSound_of_empty rfl rfl (Nat.min_le_right _ _) rfl (h.bars b).counts
  · rw [hbar]
    exact (h.cursors b).trans (cursorOf_core rfl (by rw [hnil]) b).symm

theorem storeSound_judgeSetRingSizes (h : StoreSound s) (ps : List Byte) : StoreSound (judgeSetRingSizes ps s).1 := by
  unfold judgeSetRingSizes
  split
  · exact h
  · rename_i hop
    have hoff : s.control.op ≠ .online := by
      rw [not_not.mp hop]
      decide
    cases hsizes : sizesFailure ps with
    | some check => exact h
    | none => exact storeSound_resized h hoff hsizes

theorem storeSound_threshold (h : StoreSound s) (b : BarId) (n : Nat) :
    StoreSound (s.updateBar b fun bs => { bs with threshold := min n (s.bar b).capacity }) := by
  refine h.next rfl (updateBar_capacities s b _ rfl) h.ids (fun x hnil => ?_) (fun x => ?_) fun x => ?_ <;>
    rw [State.bar_updateBar] <;> by_cases hx : b = x
  · subst hx
    rwa [if_pos rfl]
  · rwa [if_neg hx]
  · subst hx
    rw [if_pos rfl]
    exact { h.bars b with threshold_le := Nat.min_le_right _ _ }
  · rw [if_neg hx]
    exact h.bars x
  · subst hx
    rw [if_pos rfl]
    exact h.cursors b
  · rw [if_neg hx]
    exact h.cursors x

theorem storeSound_judgeSetStarveThreshold (h : StoreSound s) (ps : List Byte) :
    StoreSound (judgeSetStarveThreshold ps s).1 := by
  unfold judgeSetStarveThreshold
  split
  · exact h
  · split
    · exact h
    · rw [reply_fst]
      exact (storeSound_threshold h _ _).evaluateStarve

end

end Sys2Proof.Machine
end

section
/-! PROOF. The Stripe Store stays in order (O12), continued: the stripe that the cursor stands at, and its bar once a
piece of it is stored (R57 to R61). -/

namespace Sys2Proof.Machine

theorem completed_false (pc : Piece) (bs : BarStore) :
    BarStore.completed pc false bs = { bs with ahead := bs.ahead + 1 } := rfl

theorem completed_true (pc : Piece) (bs : BarStore) : BarStore.completed pc true bs =
    { bs with
      ring := leaveFromHead (bs.ring.map fun st =>
        if st.is pc.page pc.index then { st with retired := true } else st) } := rfl

/-! ### Places in the page queue -/

section
variable {ps : List Page} {b : BarId} (hids : (ps.map (·.id)).Nodup)
include hids

/-- Of two records of the queue one stands before the other. -/
theorem place_trichotomy {p q : Page} (hp : p ∈ ps) (hq : q ∈ ps) :
    placeOf ps q.id < placeOf ps p.id ∨ q = p ∨ placeOf ps p.id < placeOf ps q.id := by
  obtain ⟨front, back, rfl⟩ := List.append_of_mem hp
  rw [placeOf_at hids]
  rcases List.mem_append.mp hq with hq | hq
  · exact .inl (placeOf_append_lt hq)
  · rcases List.mem_cons.mp hq with rfl | hq
    · exact .inr (.inl rfl)
    · exact .inr (.inr (placeOf_behind hids hq))

/-- No page before the one that the cursor stands on lacks stripes. -/
theorem lacks_before {p q : Page} (hp : ps.find? (lacksStripes b) = some p) (hq : q ∈ ps)
    (hplace : placeOf ps q.id < placeOf ps p.id) : lacksStripes b q = false := by
  obtain ⟨-, front, back, rfl, hfront⟩ := List.find?_eq_some_iff_append.mp hp
  rw [placeOf_at hids] at hplace
  rcases List.mem_append.mp hq with hq | hq
  · simpa using hfront q hq
  · rcases List.mem_cons.mp hq with rfl | hq
    · rw [placeOf_at hids] at hplace
      omega
    · have := placeOf_behind hids hq
      omega

/-- A COMPLETE record that answers stands before the stripe that the cursor's page expects next. -/
theorem StripeSound.before_next {p : Page} {x y : Stripe} (h : StripeSound ps b x) (hr : x.released = false)
    (hc : x.state = .complete) (hp : ps.find? (lacksStripes b) = some p) (hpage : y.page = p.id)
    (hindex : y.index = entry p.complete b) : x.before ps y := by
  have hmem := List.mem_of_find?_eq_some hp
  obtain ⟨q, hq, hid, -, -, hlt, -⟩ := h.paged hr
  rw [Stripe.before, hpage, ← hid]
  rcases place_trichotomy hids hmem hq with hlt' | rfl | hgt
  · exact .inl hlt'
  · exact .inr ⟨rfl, hindex ▸ hlt hc⟩
  · have hnot := h.settled hr p hmem (hid ▸ hgt)
    have hlacks := List.find?_some hp
    rw [hnot] at hlacks
    cases hlacks

end

/-- A ring of COMPLETE records with one more at its tail. -/
theorem RecordsSound.concat {ps : List Page} {b : BarId} {front : List Stripe} {x : Stripe}
    (h : RecordsSound ps b front) (hfront : ∀ y ∈ front, y.state = .complete) (hx : StripeSound ps b x)
    (hbefore : ∀ y ∈ front, y.released = false → y.before ps x) : RecordsSound ps b (front ++ [x]) where
  newest_fills := pairwise_left_iff_dropLast.mpr (by rwa [List.dropLast_concat])
  ordered := List.pairwise_append.mpr ⟨h.ordered, List.pairwise_singleton _ _, fun y hy z hz hyr _ => by
    rw [List.mem_singleton.mp hz]
    exact hbefore y hy hyr⟩
  stripes := List.forall_mem_append.mpr ⟨h.stripes, by simpa using hx⟩

/-! ### The stripe at the cursor -/

/-- A piece begins where the cursor of its bar stands: on the page p, which still lacks stripes. -/
structure AtCursor (b : BarId) (p : Page) (pc : Piece) (s : State) : Prop where
  page : findPage s.pages pc.page = some p
  cursor : (s.bar b).cursor = some { page := pc.page, index := pc.index, row := pc.firstRow }

section
variable {s : State} {b : BarId} {p : Page} {pc : Piece} {front : List Stripe} {pre : Option Stripe}

theorem AtCursor.id (hat : AtCursor b p pc s) : p.id = pc.page := findPage_id hat.page

theorem AtCursor.mem (hat : AtCursor b p pc s) : p ∈ s.pages := List.mem_of_find?_eq_some hat.page

/-- The slots of the ring with the record that the piece fills at its tail. -/
theorem MeetsRing.slots (h : StoreSound s) (hmeets : MeetsRing b pc front pre s) (R : Nat) :
    SlotsOk (firstSlot s.store.bars b) (s.bar b).capacity (slotFollowing b pre s)
      (front.map (·.slot) ++ [(filled b pc R pre s).slot]) := by
  have hslots := (h.bars b).slots
  rw [hmeets.ring, List.map_append] at hslots
  cases pre with
  | none =>
    obtain ⟨-, hlt⟩ := hmeets.opens rfl
    obtain ⟨n, hn⟩ : ∃ n, (s.bar b).nextSlot = some n :=
      Option.isSome_iff_exists.mp (hslots.next_isSome.trans (decide_eq_true (by omega)))
    have hpush := SlotsOk.push (n := n) (slots := front.map (·.slot)) (by simpa [hn] using hslots) (by simpa using hlt)
    simpa [slotFollowing, filled, freshStripe, hn] using hpush
  | some x => simpa [slotFollowing, filled] using hslots

theorem MeetsRing.front_sublist (hmeets : MeetsRing b pc front pre s) : front.Sublist (s.bar b).ring := by
  rw [hmeets.ring]
  exact List.sublist_append_left front _

/-- The FILLING record counts for nothing ahead. -/
theorem MeetsRing.ahead (h : StoreSound s) (hmeets : MeetsRing b pc front pre s) :
    (s.bar b).ahead = (front.filter Stripe.counted).length := by
  rw [(h.bars b).ahead, hmeets.ring, List.filter_append, List.length_append]
  cases pre with
  | none => rfl
  | some x =>
    have hnot : x.counted = false := by simp [Stripe.counted, (hmeets.goes_on x rfl).1]
    simp [hnot]

/-- A page that counts one more stripe keeps its plan and lacks no more than before. -/
theorem advances_withStripe (b : BarId) (id : Nat) (q : Page) :
    Advances b q (if q.id = id then q.withStripe b else q) := by
  split
  · have hcount : entry (q.withStripe b).complete b = entry q.complete b + 1 := entry_put_same _ _ _
    refine ⟨rfl, rfl, rfl, by rw [hcount]; exact Nat.le_succ _, fun hlacks => ?_⟩
    obtain ⟨hstatus, hnamed, hlt⟩ := lacksStripes_iff.mp hlacks
    rw [hcount] at hlt
    exact lacksStripes_iff.mpr ⟨hstatus, hnamed, Nat.lt_of_succ_lt hlt⟩
  · exact .refl b q

variable (h : StoreSound s) (hat : AtCursor b p pc s)
include h hat

theorem AtCursor.find : s.pages.find? (lacksStripes b) = some p ∧ entry p.complete b = pc.index := by
  have hcursor := (h.cursors b).symm.trans hat.cursor
  cases hq : s.pages.find? (lacksStripes b) with
  | none => simp [cursorOf, hq] at hcursor
  | some q =>
    rw [cursorOf_eq hq, Option.some.injEq, StripeCursor.mk.injEq] at hcursor
    obtain ⟨hid, hindex, -⟩ := hcursor
    obtain rfl := eq_of_ids h.ids hat.mem (List.mem_of_find?_eq_some hq) (hid.trans hat.id.symm)
    exact ⟨rfl, hindex⟩

/-- The ring that a piece at the cursor meets: where it begins a stripe no record is FILLING, and otherwise the newest
record is. -/
theorem AtCursor.meets (hroom : ¬ (pc.firstRow = 0 ∧ (s.bar b).filling = none ∧ (s.bar b).free = 0)) :
    ∃ front pre, MeetsRing b pc front pre s := by
  have hrecords := (h.bars b).records
  have hcursor := (h.cursors b).symm.trans hat.cursor
  by_cases hrow : pc.firstRow = 0
  · have hcomplete : ∀ y ∈ (s.bar b).ring, y.state = .complete := fun y hy => by
      cases hstate : y.state with
      | complete => rfl
      | filling =>
        obtain ⟨-, -, -, hpos, -⟩ := (hrecords.stripes y hy).filling hstate
        rw [hrecords.cursorOf_filling hy hstate, Option.some.injEq, StripeCursor.mk.injEq] at hcursor
        omega
    refine ⟨(s.bar b).ring, none, by simp, hcomplete, fun _ => ⟨hrow, ?_⟩, fun x hx => nomatch hx⟩
    have hfree : (s.bar b).free ≠ 0 := fun hfree =>
      hroom ⟨hrow, filling_none_of_complete hcomplete rfl, hfree⟩
    rw [BarStore.free] at hfree
    omega
  · obtain ⟨front, st, hring, hfront, hfill⟩ := hrecords.exists_filling hcursor hrow
    refine ⟨front, some st, hring, hfront, (fun hnone => nomatch hnone), fun x hx => ?_⟩
    obtain rfl := Option.some.inj hx
    exact ⟨hfill, hrow⟩

/-- The record that a piece at the cursor fills is the stripe that stands there, as far as it has come. -/
theorem AtCursor.filled_eq (hmeets : MeetsRing b pc front pre s) :
    let st := filled b pc (stripeRows p.length pc.index) pre s
    st.page = pc.page ∧ st.index = pc.index ∧ st.rows = stripeRows p.length pc.index ∧ st.received = pc.firstRow ∧
      st.taken = false ∧ st.retired = false ∧ st.released = false := by
  cases pre with
  | none =>
    obtain ⟨hrow, -⟩ := hmeets.opens rfl
    exact ⟨rfl, rfl, rfl, hrow.symm, rfl, rfl, rfl⟩
  | some x =>
    obtain ⟨hfill, -⟩ := hmeets.goes_on x rfl
    have hmem : x ∈ (s.bar b).ring := by rw [hmeets.ring]; simp
    have hsound := (h.bars b).records.stripes x hmem
    have hcursor := (h.cursors b).symm.trans hat.cursor
    rw [(h.bars b).records.cursorOf_filling hmem hfill, Option.some.injEq, StripeCursor.mk.injEq] at hcursor
    obtain ⟨hpage, hindex, hreceived⟩ := hcursor
    obtain ⟨htaken, hretired, hreleased, -⟩ := hsound.filling hfill
    obtain ⟨q, hq, hid, -, -, -, hrows⟩ := hsound.paged hreleased
    obtain rfl := eq_of_ids h.ids hat.mem hq (hid.trans (hpage.trans hat.id.symm))
    exact ⟨hpage, hindex, hindex ▸ hrows, hreceived, htaken, hretired, hreleased⟩

theorem AtCursor.front_before (hmeets : MeetsRing b pc front pre s) {x : Stripe} (hpage : x.page = pc.page)
    (hindex : x.index = pc.index) : ∀ y ∈ front, y.released = false → y.before s.pages x := fun y hy hr => by
  obtain ⟨hfind, hcount⟩ := hat.find h
  have hy' := (h.bars b).records.stripes y (hmeets.front_sublist.subset hy)
  exact hy'.before_next h.ids hr (hmeets.complete y hy) hfind (hpage.trans hat.id.symm) (hindex.trans hcount.symm)

/-- The stripe at the cursor with some of its rows stored. -/
theorem AtCursor.stripeSound_filling {x : Stripe} (hpage : x.page = pc.page) (hindex : x.index = pc.index)
    (hrows : x.rows = stripeRows p.length pc.index) (hstate : x.state = .filling) (htaken : x.taken = false)
    (hretired : x.retired = false) (hreleased : x.released = false) (hpos : 0 < x.received)
    (hlt : x.received < x.rows) (hsum : x.sum < 65536) : StripeSound s.pages b x := by
  obtain ⟨hfind, hcount⟩ := hat.find h
  obtain ⟨hstatus, hnamed, -⟩ := lacksStripes_iff.mp (List.find?_some hfind)
  exact
    { paged := fun _ => ⟨p, hat.mem, hat.id.trans hpage.symm, hnamed, fun hdone => absurd hdone hstatus,
        fun hc => by simp [hstate] at hc, hindex ▸ hrows⟩
      settled := fun _ q hq hplace => lacks_before h.ids hfind hq (by rwa [hpage, ← hat.id] at hplace)
      released_retired := fun hr => by simp [hreleased] at hr
      complete := fun hc => by simp [hstate] at hc
      filling := fun _ => ⟨htaken, hretired, hreleased, hpos, hlt, p, hfind, hat.id.trans hpage.symm,
        hcount.trans hindex.symm⟩
      sum_lt := hsum }

/-- The stripe at the cursor COMPLETE, over the pages that count it. -/
theorem AtCursor.stripeSound_complete {x : Stripe} (hpage : x.page = pc.page) (hindex : x.index = pc.index)
    (hrows : x.rows = stripeRows p.length pc.index) (hstate : x.state = .complete) (hreceived : x.received = x.rows)
    (hreleased : x.released = false) (hsum : x.sum < 65536) :
    StripeSound (changePage pc.page (Page.withStripe b) s.pages) b x := by
  obtain ⟨hfind, hcount⟩ := hat.find h
  obtain ⟨hstatus, hnamed, -⟩ := lacksStripes_iff.mp (List.find?_some hfind)
  have hadv := fun q (_ : q ∈ s.pages) => advances_withStripe b pc.page q
  exact
    { paged := fun _ => ⟨p.withStripe b, List.mem_map.mpr ⟨p, hat.mem, if_pos hat.id⟩, hat.id.trans hpage.symm, hnamed,
        fun hdone => absurd hdone hstatus, fun _ => by
          rw [hindex, ← hcount, Page.withStripe, entry_put_same]
          exact Nat.lt_succ_self _,
        hindex ▸ hrows⟩
      settled := fun _ => List.forall_mem_map.mpr fun q hq hplace => by
        rw [changePage, placeOf_map hadv, placeOf_map hadv, (hadv q hq).id, hpage, ← hat.id] at hplace
        exact Bool.eq_false_iff.mpr fun hlacks =>
          Bool.eq_false_iff.mp (lacks_before h.ids hfind hq hplace) ((hadv q hq).lacks hlacks)
      released_retired := fun hr => by simp [hreleased] at hr
      complete := fun _ => hreceived
      filling := fun hfill => by simp [hstate] at hfill
      sum_lt := hsum }

/-! ### The bar once a piece is stored -/

/-- The pages' counts with the stripe that is complete. -/
theorem AtCursor.counts : ∀ q ∈ changePage pc.page (Page.withStripe b) s.pages,
    entry q.complete b ≤ entry q.expected b := by
  refine List.forall_mem_map.mpr fun q hq => ?_
  split
  next hid =>
    obtain ⟨hfind, -⟩ := hat.find h
    obtain rfl := eq_of_ids h.ids hat.mem hq (hid.trans hat.id.symm)
    obtain ⟨-, -, hlt⟩ := lacksStripes_iff.mp (List.find?_some hfind)
    have hcount : entry (q.withStripe b).complete b = entry q.complete b + 1 := entry_put_same _ _ _
    rw [hcount]
    exact hlt
  next => exact (h.bars b).counts q hq

section
variable (hmeets : MeetsRing b pc front pre s)
include hmeets

/-- The piece is not the last of its stripe. -/
theorem AtCursor.barSound_stored (hsome : 1 ≤ pc.rowCount)
    (hlt : pc.firstRow + pc.rowCount < stripeRows p.length pc.index) :
    BarSound (firstSlot s.store.bars b) s.pages b { s.bar b with
      ring := front ++ [(filled b pc (stripeRows p.length pc.index) pre s).plus pc]
      nextSlot := slotFollowing b pre s } := by
  have hslots := hmeets.slots h (stripeRows p.length pc.index)
  have hfill := hmeets.filled_filling (stripeRows p.length pc.index)
  obtain ⟨hpage, hindex, hrows, hreceived, htaken, hretired, hreleased⟩ := hat.filled_eq h hmeets
  generalize filled b pc (stripeRows p.length pc.index) pre s = st at *
  have hsound : StripeSound s.pages b (st.plus pc) :=
    hat.stripeSound_filling h hpage hindex hrows hfill htaken hretired hreleased
      (by show 0 < st.received + pc.rowCount; omega)
      (by show st.received + pc.rowCount < st.rows; rw [hreceived, hrows]; exact hlt) (Nat.mod_lt _ (by omega))
  refine ⟨by rw [List.map_append]; exact hslots, (h.bars b).threshold_le,
    ((h.bars b).records.sublist hmeets.front_sublist).concat hmeets.complete hsound
      (hat.front_before h hmeets hpage hindex), (h.bars b).counts, ?_⟩
  have hnot : (st.plus pc).counted = false := by simp [Stripe.counted, Stripe.plus, hfill]
  rw [List.filter_append, List.filter_singleton, hnot]
  simpa using hmeets.ahead h

omit hat in
/-- The stripe is discarded. -/
theorem MeetsRing.barSound_discarded (R : Nat) : BarSound (firstSlot s.store.bars b) s.pages b { s.bar b with
    ring := front, nextSlot := some (filled b pc R pre s).slot } :=
  ⟨(hmeets.slots h R).withdraw, (h.bars b).threshold_le, (h.bars b).records.sublist hmeets.front_sublist,
    (h.bars b).counts, hmeets.ahead h⟩

omit hat in
theorem MeetsRing.front_sound : RecordsSound (changePage pc.page (Page.withStripe b) s.pages) b front := by
  refine ((h.bars b).records.sublist hmeets.front_sublist).of_map (fun q _ => advances_withStripe b pc.page q)
    (fun st _ _ q _ _ hold hnew => hold ?_) fun st hst hfill => ?_
  · split at hnew <;> exact hnew
  · simp [hmeets.complete st hst] at hfill

/-- The stripe is complete; it retires at once or counts ahead. -/
theorem AtCursor.barSound_completed (hlast : pc.firstRow + pc.rowCount = stripeRows p.length pc.index) (retire : Bool) :
    BarSound (firstSlot s.store.bars b) (changePage pc.page (Page.withStripe b) s.pages) b
      (BarStore.completed pc retire { s.bar b with
        ring := front ++ [(filled b pc (stripeRows p.length pc.index) pre s).ended pc]
        nextSlot := slotFollowing b pre s }) := by
  have hslots := hmeets.slots h (stripeRows p.length pc.index)
  obtain ⟨hpage, hindex, hrows, hreceived, htaken, hretired, hreleased⟩ := hat.filled_eq h hmeets
  generalize filled b pc (stripeRows p.length pc.index) pre s = st at *
  have hsound : StripeSound (changePage pc.page (Page.withStripe b) s.pages) b (st.ended pc) :=
    hat.stripeSound_complete h hpage hindex hrows rfl
      (by show st.received + pc.rowCount = st.rows; rw [hreceived, hrows]; exact hlast) hreleased
      (Nat.mod_lt _ (by omega))
  have hbefore : ∀ y ∈ front, y.released = false →
      y.before (changePage pc.page (Page.withStripe b) s.pages) (st.ended pc) := fun y hy hr => by
    have hold := hat.front_before h hmeets (x := st.ended pc) hpage hindex y hy hr
    rwa [Stripe.before, changePage, placeOf_map fun q _ => advances_withStripe b pc.page q,
      placeOf_map fun q _ => advances_withStripe b pc.page q]
  have hahead := hmeets.ahead h
  have hcounts := hat.counts h
  have hfront := hmeets.front_sound h
  cases retire with
  | false =>
    rw [completed_false]
    refine ⟨by rw [List.map_append]; exact hslots, (h.bars b).threshold_le,
      hfront.concat hmeets.complete hsound hbefore, hcounts, ?_⟩
    have hcounted : (st.ended pc).counted = true := by
      simp [Stripe.counted, Stripe.ended, Stripe.plus, htaken, hretired]
    rw [List.filter_append, List.filter_singleton, hcounted]
    simpa using hahead
  | true =>
    have hunlike : ∀ y ∈ front, y.released = false → ¬ (y.page = pc.page ∧ y.index = pc.index) := by
      rintro y hy hr ⟨hypage, hyindex⟩
      have hlt := hbefore y hy hr
      rw [Stripe.before, show (st.ended pc).page = pc.page from hpage, show (st.ended pc).index = pc.index from hindex,
        hypage, hyindex] at hlt
      omega
    have hnot : ({ st.ended pc with retired := true } : Stripe).counted = false := by simp [Stripe.counted]
    rw [completed_true, retire_tail hunlike hpage hindex hreleased]
    refine ⟨SlotsOk.dropWhile_map _ (by rw [List.map_append]; exact hslots), (h.bars b).threshold_le,
      (hfront.concat hmeets.complete (hsound.retire rfl) hbefore).sublist (List.dropWhile_sublist _), hcounts, ?_⟩
    rw [filter_counted_dropWhile, List.filter_append, List.filter_singleton, hnot]
    simpa using hahead

end

end

end Sys2Proof.Machine
end

section
/-! PROOF. The Stripe Store stays in order (O12), completed: a stripe piece (R57 to R61), and every command. -/

namespace Sys2Proof.Machine

section
variable {s t : State}

/-- One bar changes and is in order, and the others see no change of the pages. -/
theorem StoreSound.change_bar (h : StoreSound s) {b : BarId} (honline : s.control.op = .online)
    (hop : t.control.op = s.control.op) (hids : (t.pages.map (·.id)).Nodup)
    (hcap : (t.bar b).capacity = (s.bar b).capacity)
    (hbar : BarSound (firstSlot s.store.bars b) t.pages b (t.bar b)) (hothers : ∀ x, x ≠ b → t.bar x = s.bar x)
    (hviews : ∀ x, x ≠ b → t.pages.map (Page.view x) = s.pages.map (Page.view x)) : RingsSound t := by
  have hcapacities : t.capacities = s.capacities := capacities_eq_iff.mpr fun x => by
    by_cases hx : x = b
    · rw [hx, hcap]
    · rw [hothers x hx]
  refine ⟨hids, by simpa only [State.capacity_eq hcapacities] using h.capacities, fun _ _ => hop.trans honline,
    fun x => ?_⟩
  rw [firstSlot_congr hcapacities]
  by_cases hx : x = b
  · rw [hx]
    exact hbar
  · rw [hothers x hx]
    exact (h.bars x).of_views (hviews x hx)

theorem withStripe_view {b x : BarId} (hx : x ≠ b) (q : Page) : (q.withStripe b).view x = q.view x := by
  have hcount : entry (q.withStripe b).complete x = entry q.complete x := entry_put_of_ne _ _ (Ne.symm hx)
  rw [Page.view, hcount]
  rfl

theorem changePage_view {b x : BarId} (hx : x ≠ b) (id : Nat) (ps : List Page) :
    (changePage id (Page.withStripe b) ps).map (Page.view x) = ps.map (Page.view x) := by
  rw [changePage, List.map_map]
  refine List.map_congr_left fun q _ => ?_
  rw [Function.comp_apply]
  split
  · exact withStripe_view hx q
  · rfl

theorem changePage_ids (b : BarId) (id : Nat) (ps : List Page) :
    (changePage id (Page.withStripe b) ps).map (·.id) = ps.map (·.id) := by
  rw [changePage, List.map_map]
  exact List.map_congr_left fun q _ => (advances_withStripe b id q).id

section
variable {b : BarId} {p : Page} {pc : Piece} {front : List Stripe} {pre : Option Stripe} (h : StoreSound s)
  (honline : s.control.op = .online) (hat : AtCursor b p pc s) (hmeets : MeetsRing b pc front pre s)
include h honline hat hmeets

theorem ringsSound_pieceStored (hsome : 1 ≤ pc.rowCount)
    (hlt : pc.firstRow + pc.rowCount < stripeRows p.length pc.index) :
    RingsSound (pieceStored b pc front (filled b pc (stripeRows p.length pc.index) pre s) (slotFollowing b pre s)
      s) := by
  have hbar := fun x =>
    pieceStored_bar b x pc front (filled b pc (stripeRows p.length pc.index) pre s) (slotFollowing b pre s) s
  refine h.change_bar (b := b) honline rfl h.ids ?_ ?_ (fun x hx => by rw [hbar, if_neg (Ne.symm hx)]) fun _ _ => rfl
  · rw [hbar, if_pos rfl]
  · rw [hbar, if_pos rfl]
    exact hat.barSound_stored h hmeets hsome hlt

omit hat in
theorem ringsSound_pieceDiscarded (R : Nat) :
    RingsSound (pieceDiscarded b front (filled b pc R pre s).slot
      (pieceStored b pc front (filled b pc R pre s) (slotFollowing b pre s) s)) := by
  have hbar := fun x =>
    pieceDiscarded_bar b x pc front (filled b pc R pre s) (slotFollowing b pre s) (filled b pc R pre s).slot s
  refine h.change_bar (b := b) honline rfl h.ids ?_ ?_ (fun x hx => by rw [hbar, if_neg (Ne.symm hx)]) fun _ _ => rfl
  · rw [hbar, if_pos rfl]
  · rw [hbar, if_pos rfl]
    exact hmeets.barSound_discarded h R

theorem ringsSound_pieceEnded (hlast : pc.firstRow + pc.rowCount = stripeRows p.length pc.index) (retire : Bool) :
    RingsSound (pieceEnded b pc retire
      (pieceStored b pc front (filled b pc (stripeRows p.length pc.index) pre s) (slotFollowing b pre s) s)) := by
  have hbar := fun x => pieceEnded_bar (b := b) (pc := pc) (next := slotFollowing b pre s) (s := s) hmeets.complete
    (hmeets.filled_filling (stripeRows p.length pc.index)) retire x
  have hpages : (pieceEnded b pc retire (pieceStored b pc front (filled b pc (stripeRows p.length pc.index) pre s)
    (slotFollowing b pre s) s)).pages = changePage pc.page (Page.withStripe b) s.pages := rfl
  refine h.change_bar (b := b) honline rfl ?_ ?_ ?_ (fun x hx => by rw [hbar, if_neg (Ne.symm hx)]) fun x hx => ?_
  · rw [hpages, changePage_ids]
    exact h.ids
  · rw [hbar, if_pos rfl]
    cases retire <;> rfl
  · rw [hbar, if_pos rfl, hpages]
    exact hat.barSound_completed h hmeets hlast retire
  · rw [hpages]
    exact changePage_view hx _ _

/-- A piece that passes every check leaves the store in order, whether its stripe goes on, is complete or is
discarded. -/
theorem storeSound_storePiece (hsome : 1 ≤ pc.rowCount)
    (hwithin : pc.firstRow + pc.rowCount ≤ stripeRows p.length pc.index)
    (hfinal : pc.final = true ↔ pc.firstRow + pc.rowCount = stripeRows p.length pc.index) :
    StoreSound (storePiece b pc (stripeRows p.length pc.index) s).1 := by
  have hfill := hmeets.filled_filling (stripeRows p.length pc.index)
  cases hend : pc.final with
  | false =>
    have hne : pc.firstRow + pc.rowCount ≠ stripeRows p.length pc.index := fun he => by simp [hfinal.mpr he] at hend
    rw [hmeets.storePiece_going_on _ hend]
    exact (ringsSound_pieceStored h honline hat hmeets hsome (by omega)).refreshCursors
  | true =>
    by_cases hsum : ((filled b pc (stripeRows p.length pc.index) pre s).sum + Frame.byteSum pc.data) % 65536 = pc.sum
    · rw [hmeets.storePiece_completes _ hend hsum, completeStripe_stored hmeets.complete hfill]
      exact (ringsSound_pieceEnded h honline hat hmeets (hfinal.mp hend) _).refreshCursors.evaluateStarve
    · rw [hmeets.storePiece_discards _ hend hsum, discardStripe_stored hmeets.complete hfill]
      exact (ringsSound_pieceDiscarded h honline hmeets _).refreshCursors

end

theorem atCursor_iff {pc : Piece} {c : Option StripeCursor} :
    atCursor pc c = true ↔ c = some { page := pc.page, index := pc.index, row := pc.firstRow } := by
  cases c with
  | none => simp [atCursor]
  | some c =>
    obtain ⟨page, index, row⟩ := c
    simp only [atCursor, Bool.and_eq_true, decide_eq_true_eq, Option.some.injEq, StripeCursor.mk.injEq, and_assoc]
    rw [eq_comm (a := pc.page), eq_comm (a := pc.index), eq_comm (a := pc.firstRow)]

theorem badPieceShape_eq_false {width R : Nat} {pc : Piece} (h : badPieceShape width R pc = false) :
    1 ≤ pc.rowCount ∧ pc.firstRow + pc.rowCount ≤ R := by
  simp only [badPieceShape, Bool.or_eq_false_iff, decide_eq_false_iff_not] at h
  omega

theorem wrongFinal_eq_false {R : Nat} {pc : Piece} (hwithin : pc.firstRow + pc.rowCount ≤ R)
    (h : wrongFinal R pc = false) : pc.final = true ↔ pc.firstRow + pc.rowCount = R := by
  cases hfinal : pc.final <;> simp only [wrongFinal, hfinal, Bool.false_eq_true, if_true, if_false,
    decide_eq_false_iff_not, false_iff, true_iff] at h ⊢ <;> omega

theorem storeSound_judgeStripePiece (h : StoreSound s) (body : List Byte) :
    StoreSound (judgeStripePiece body s).1 := by
  unfold judgeStripePiece
  dsimp only
  repeat' split
  on_goal 10 =>
    rename_i hop _ b _ _ _ p hp _ hcursor hshape hroom hwrong
    have hat : AtCursor b p (readPiece body) s := ⟨hp, atCursor_iff.mp (by simpa using hcursor)⟩
    obtain ⟨hsome, hwithin⟩ := badPieceShape_eq_false (Bool.not_eq_true _ ▸ hshape)
    obtain ⟨front, pre, hmeets⟩ := hat.meets h hroom
    exact storeSound_storePiece h (not_not.mp hop) hat hmeets hsome hwithin
      (wrongFinal_eq_false hwithin (Bool.not_eq_true _ ▸ hwrong))
  all_goals exact h

/-! ### Every command -/

/-- An event at rows keeps the store in order, whatever words have been damaged before it. -/
theorem Stocked.sound (k : Stocked s t) (h : StoreSound s) : StoreSound t := by
  obtain ⟨us, hstep⟩ := k
  exact hstep.sound (h.same_op (t := upset us s) rfl rfl rfl)

theorem exec_storeSound {c : Instr} (ok : OperatingOk s) (sound : StoreSound s) (h : exec c s = .next t) :
    StoreSound t := by
  cases hc : restocks c with
  | false => exact (exec_stocked hc h).sound sound
  | true =>
    cases c with
    | powerOnReset a b g =>
      obtain rfl := Host.Outcome.next.inj h
      exact (storeSound_powerOn s.store.memory s.store.damage a b g).same_op rfl rfl rfl
    | goOnline ps =>
      obtain rfl := Host.Outcome.next.inj h
      exact storeSound_takeRequest sound (fun _ sound => storeSound_judgeGoOnline sound ps) _ ps
    | probeAnswer port st env =>
      obtain rfl := Host.Outcome.next.inj h
      have hupset : StoreSound (upset env.upsets s) := sound.same_op rfl rfl rfl
      split
      · rename_i w hw
        split
        · have hshelf := takeBrief_shelf port st (upset env.upsets s)
          obtain ⟨-, hbusy, -⟩ := probing_cases hw
          have hfits := (workFits_busy hbusy).mp ok.work
          refine storeSound_endProbe (s := freeLink port (takeBrief port st (upset env.upsets s)))
            ((hupset.of_shelf hshelf).same_op rfl rfl rfl) ?_ env port _ _
          rw [← hfits]
          exact congrArg w.fits (op_of_shelf (s := upset env.upsets s) hshelf)
        · exact hupset
      · exact hupset
    | probeTimeout port =>
      obtain rfl := Host.Outcome.next.inj h
      split
      · rename_i w hw
        obtain ⟨-, hbusy, -⟩ := probing_cases hw
        exact storeSound_endProbe (s := freeLink port s) (sound.same_op rfl rfl rfl)
          ((workFits_busy hbusy).mp ok.work) _ port _ _
      · exact sound
    | goOffline ps =>
      obtain rfl := Host.Outcome.next.inj h
      exact storeSound_takeRequest sound (fun _ sound => storeSound_judgeGoOffline sound ps) _ ps
    | clear ps =>
      obtain rfl := Host.Outcome.next.inj h
      exact storeSound_takeRequest sound (fun _ sound => storeSound_judgeClear sound ps) _ ps
    | drainComplete =>
      obtain rfl := Host.Outcome.next.inj h
      split
      · rename_i clear count hbusy
        split
        · have hop : s.control.op = .draining := by simpa [Work.fits] using (workFits_busy hbusy).mp ok.work
          exact storeSound_enterSetup sound (by rw [hop]; decide) clear count
        · exact sound
      · exact sound
    | openPage ps =>
      obtain rfl := Host.Outcome.next.inj h
      exact storeSound_takeRequest sound (fun _ sound => storeSound_judgeOpenPage sound ps) _ ps
    | releasePage ps =>
      obtain rfl := Host.Outcome.next.inj h
      exact storeSound_takeRequest sound (fun _ sound => storeSound_judgeReleasePage sound ps) _ ps
    | setRingSizes ps =>
      obtain rfl := Host.Outcome.next.inj h
      exact storeSound_takeRequest sound (fun _ sound => storeSound_judgeSetRingSizes sound ps) _ ps
    | setStarveThreshold ps =>
      obtain rfl := Host.Outcome.next.inj h
      exact storeSound_takeRequest sound (fun _ sound => storeSound_judgeSetStarveThreshold sound ps) _ ps
    | stripePiece body =>
      obtain rfl := Host.Outcome.next.inj h
      exact takeData_keeps (P := StoreSound) (fun _ l sound => sound.link l) sound
        (fun l => storeSound_judgeStripePiece (sound.link l) body) body
    | _ => cases hc

/-- Settles O12. Of the page queue the order of the rings needs only that no two records have one id. -/
theorem stepsKeepStoreOk : Obligations.StepsKeepStoreOk := fun _ _ ok pages store h =>
  (step_keeps (P := fun u => OperatingOk u ∧ StoreSound u)
    (fun _ _ hu => ⟨{ hu.1 with }, hu.2.same_op rfl rfl rfl⟩)
    (fun _ _ _ hu h => ⟨exec_operatingOk hu.1 h, exec_storeSound hu.1 hu.2 h⟩)
    ⟨ok, storeSound_of_storeOk store pages.ids_distinct⟩ h).2.storeOk

end

end Sys2Proof.Machine
end

section
/-! PROOF. Fire positions (O58), and the levels, the windows and the end of a play (O46). -/

namespace Sys2Proof.Machine

/-! ### Fire positions (R78, R79) -/

/-- The next line's fire position lies one pitch on before both are rounded. -/
theorem firePosition_succ (start offset k pitch : Nat) :
    firePosition start offset (k + 1) pitch = start + (offset + k * pitch + pitch + 32768) / 65536 := by
  rw [firePosition, Nat.succ_mul, ← Nat.add_assoc offset]

/-- Settles O58. -/
theorem firePositionsIncrease : Obligations.FirePositionsIncrease := by
  intro start offset k pitch hpitch F
  have hF : F = start + (offset + k * pitch + 32768) / 65536 := rfl
  rw [firePosition_succ, hF]
  generalize offset + k * pitch = x
  refine ⟨?_, ?_, ?_, ?_⟩ <;> omega

/-! ### Output levels (R118, R119) -/

theorem outputLevel_eq (level : Byte) (scale : Nat) (ceiling : Byte) :
    outputLevel level scale ceiling = min (min ((level.toNat * scale + 50) / 100) 255) ceiling.toNat := rfl

theorem clampedByCeiling_iff {level : Byte} {scale : Nat} {ceiling : Byte} :
    clampedByCeiling level scale ceiling = true ↔ ceiling.toNat < min ((level.toNat * scale + 50) / 100) 255 :=
  decide_eq_true_iff

/-- A scale of at most 150 takes a level to at most 383. -/
theorem scaledLevel_le {level : Byte} {scale : Nat} (h : scale ≤ 150) : scaledLevel level scale ≤ 383 := by
  have hproduct : level.toNat * scale ≤ 255 * 150 := Nat.mul_le_mul (by have := level.isLt; omega) h
  unfold scaledLevel
  omega

theorem levelRequested_eq_none {steps : List WaveStep} {scale : Nat} {ceiling : Byte} :
    levelRequested steps scale ceiling = none ↔ ∀ st ∈ steps, clampedByCeiling st.level scale ceiling = false := by
  simp [levelRequested]

/-- The level requested is a clamped step's, and no clamped step's is greater. -/
theorem levelRequested_eq_some {steps : List WaveStep} {scale : Nat} {ceiling : Byte} {n : Nat} :
    levelRequested steps scale ceiling = some n ↔
      (∃ st ∈ steps, clampedByCeiling st.level scale ceiling = true ∧ scaledLevel st.level scale = n) ∧
      ∀ st ∈ steps, clampedByCeiling st.level scale ceiling = true → scaledLevel st.level scale ≤ n := by
  simp only [levelRequested, List.max?_eq_some_iff, List.mem_map, List.mem_filter, and_assoc, forall_exists_index,
    and_imp]
  exact and_congr_right fun _ => ⟨fun h st hst hc => h _ st hst hc rfl, fun h _ st hst hc he => he ▸ h st hst hc⟩

/-! ### A play in time (R114 to R116) -/

theorem windowConnects_iff {w : Fin 4} {code : Code} :
    windowConnects w code = true ↔ 1 ≤ w.val ∧ w.val ≤ code.val := by
  rw [windowConnects, Bool.and_eq_true, decide_eq_true_iff, decide_eq_true_iff, Nat.one_le_iff_ne_zero, ne_eq,
    Fin.ext_iff]
  rfl

/-- A play is in a step while the steps before it have run and it has not. -/
theorem stepAt_of_mem {front back : List PlayStep} {st : PlayStep} {u : Nat}
    (hfrom : (front.map (·.duration)).sum ≤ u) (hto : u < (front.map (·.duration)).sum + st.duration) :
    stepAt (front ++ st :: back) u = some st := by
  induction front generalizing u with
  | nil => exact if_pos (by simpa using hto)
  | cons first front ih =>
    simp only [List.map_cons, List.sum_cons] at hfrom hto
    rw [List.cons_append, stepAt, if_neg (by omega)]
    exact ih (by omega) (by omega)

/-- A play is over once all its steps have run. -/
theorem stepAt_of_over {steps : List PlayStep} {u : Nat} (h : (steps.map (·.duration)).sum ≤ u) :
    stepAt steps u = none := by
  induction steps generalizing u with
  | nil => rfl
  | cons st steps ih =>
    simp only [List.map_cons, List.sum_cons] at h
    rw [stepAt, if_neg (by omega)]
    exact ih (by omega)

section
variable {s : State} {r : RowId} {row : Row} {play : Play} {u : Nat}

/-- What a row drives and connects in a step of its play (R114, R115). -/
theorem drives_of_stepAt {st : PlayStep} (hrow : s.row r = some row) (hdrive : row.drive = .playing play)
    (h : stepAt play.steps u = some st) :
    s.driveLevel r u = st.output ∧
      ∀ i, s.connects r u i = true ↔ 1 ≤ st.window.val ∧ st.window.val ≤ (play.codes.getD i 0).val := by
  rw [driveLevel_of_row hrow, hdrive]
  refine ⟨by simp [driveOutput, outputAt, h], fun i => ?_⟩
  rw [connects_of_row hrow, hdrive, ← windowConnects_iff]
  simp [driveConnects, connectedAt, h]

/-- After the last step of its play a row drives level 0 and connects no nozzle (R116). -/
theorem drives_of_over (hrow : s.row r = some row) (hdrive : row.drive = .playing play)
    (h : stepAt play.steps u = none) (i : Nat) : s.driveLevel r u = 0 ∧ s.connects r u i = false := by
  rw [driveLevel_of_row hrow, connects_of_row hrow, hdrive]
  simp [driveOutput, outputAt, driveConnects, connectedAt, h]

/-- At REST a row drives level 0 and connects no nozzle (R116). -/
theorem drives_of_rest (hrow : s.row r = some row) (hdrive : row.drive = .rest) (u i : Nat) :
    s.driveLevel r u = 0 ∧ s.connects r u i = false := by
  rw [driveLevel_of_row hrow, connects_of_row hrow, hdrive]
  exact ⟨rfl, rfl⟩

/-- A row without a channel drives level 0 and connects no nozzle (R116). -/
theorem drives_of_no_row (hrow : s.row r = none) (u i : Nat) : s.driveLevel r u = 0 ∧ s.connects r u i = false := by
  simp [State.driveLevel, State.connects, hrow]

end

/-! ### The end of a play (R89, R116) -/

theorem updateRow_of_row {s : State} {r : RowId} {row : Row} (h : s.row r = some row) (f : Row → Row) :
    s.updateRow r f = { s with rows := put s.rows r (some (f row)) } := by
  have hentry : entry s.rows r = some row := h
  rw [State.updateRow, hentry, Option.map_some]

theorem updateRow_of_no_row {s : State} {r : RowId} (h : s.row r = none) (f : Row → Row) : s.updateRow r f = s := by
  have hentry : entry s.rows r = none := h
  rw [State.updateRow, hentry, Option.map_none, ← hentry, put_entry]

/-- Settles O46. -/
theorem playsDriveAndEnd : Obligations.PlaysDriveAndEnd := by
  refine ⟨⟨fun level ceiling scale => ?_, fun steps scale ceiling => ⟨levelRequested_eq_none, fun n =>
    levelRequested_eq_some⟩, fun w code => windowConnects_iff⟩, fun r row s hrow => ?_, fun r s hrow => ?_,
    fun r row play front back st s hrow hdrive => ⟨fun hsteps u hfrom hto => ?_, fun u i hover => ?_⟩⟩
  · have hlevel := level.isLt
    have htop : (255 : Byte).toNat = 255 := rfl
    simp only [outputLevel_eq, clampedByCeiling_iff, scaledLevel]
    refine ⟨min_le_right _ _, fun h255 hcap => ?_, fun h255 hcap => ?_, scaledLevel_le, trivial, fun h => ?_, ?_, ?_⟩
    · omega
    · rw [hcap, htop]
      omega
    · omega
    · rw [htop]
      omega
    · simp
  · refine ⟨_, rfl, updateRow_of_row hrow _, fun u i => drives_of_rest (row := { row with drive := .rest }) ?_ rfl u i⟩
    exact (State.row_updateRow_same s r _).trans (by rw [hrow, Option.map_some])
  · exact ⟨congrArg Host.Outcome.next (updateRow_of_no_row hrow _), drives_of_no_row hrow⟩
  · exact drives_of_stepAt hrow hdrive (hsteps ▸ stepAt_of_mem hfrom hto)
  · exact drives_of_over hrow hdrive (stepAt_of_over hover) i

end Sys2Proof.Machine
end

section
/-! PROOF. A brief status taken, a load completed (O49), and a READY port that enters FAULT (O50): each operation as the
fields of the state it changes, said once. -/

namespace Sys2Proof.Machine

/-! ### The link and the brief status (R128, R130) -/

section
variable {s : State} {p : PortId}

theorem onLink_of_link {ex : Exchange} {kind : HeaderKind} (h : (s.port p).link = some ex)
    (hkind : ex.header.kind = kind) : onLink s p kind = some ex.header := by
  simp [onLink, h, hkind]

theorem onLink_of_other {kind : HeaderKind} (h : ∀ ex, (s.port p).link = some ex → ex.header.kind ≠ kind) :
    onLink s p kind = none := by
  unfold onLink
  split
  · rename_i ex hex
    exact if_neg (h ex hex)
  · rfl

/-- The Report Queue after a brief status: a warning at a port that is not yet warm is reported (R130). -/
def warned (p : PortId) (st : BriefStatus) (s : State) : Reports :=
  if st.warning = true ∧ (s.port p).warm = false then
    { queue := postTo s.motion.pos (.headWarm p) (.temperature st.temperature.val) s.reports.queue
      attention := true }
  else s.reports

/-- A brief status becomes the port's last one, its warning the warm flag; nothing else changes but the reports. -/
theorem takeBrief_eq (p : PortId) (st : BriefStatus) (s : State) :
    takeBrief p st s =
      { s with
        ports := put s.ports p { s.port p with last := some st, warm := st.warning }
        reports := warned p st s } := by
  unfold takeBrief warned
  by_cases h : st.warning = true ∧ (s.port p).warm = false
  · rw [if_pos (by simpa using h), if_pos h]
    exact congrArg (fun reports => { s.updatePort p _ with reports := reports }) (post_reports _ _ _)
  · rw [if_neg (by simpa using h), if_neg h]
    rfl

/-- A brief status that ends what its port's link carried. -/
theorem freeLink_takeBrief_eq (p : PortId) (st : BriefStatus) (s : State) :
    freeLink p (takeBrief p st s) =
      { s with
        ports := put s.ports p { s.port p with last := some st, warm := st.warning, link := none }
        reports := warned p st s } := by
  rw [takeBrief_eq]
  simp [freeLink, State.updatePort]

/-! ### The end of a load (R82, R83, R128) -/

theorem echoMatches_eq (h : LineHeader) (st : BriefStatus) :
    echoMatches h st = (decide (st.letter = h.letter) && decide (st.tag = h.tag) &&
      decide (st.parityEcho = h.parity)) := rfl

theorem echoMatches_eq_false {h : LineHeader} {st : BriefStatus} :
    echoMatches h st = false ↔ st.letter ≠ h.letter ∨ st.tag ≠ h.tag ∨ st.parityEcho ≠ h.parity := by
  simp only [echoMatches_eq, Bool.and_eq_false_iff, decide_eq_false_iff_not, or_assoc, ne_eq]

theorem Row.complete_of_shifting {row : Row} {k : Nat} {list : CodeList} (h : row.latch = .loading k (.shifting list))
    (good : Bool) :
    row.complete good = if good = true then { row with latch := .ready k list, errors := 0 }
      else { row with latch := .failed k, errors := row.errors + 1 } := by
  simp only [Row.complete, h]

/-- The part once a load has ended at its row and the link is free, the row's count not yet judged. -/
def loadEnded (p : PortId) (h : LineHeader) (st : BriefStatus) (s : State) : State :=
  freeLink p ((takeBrief p st s).updateRow (rowOf p h.letter) fun row => row.complete (echoMatches h st))

theorem completeLoad_of_fault (h : LineHeader) {st : BriefStatus} (hf : st.fault = true) :
    completeLoad p h st s = freeLink p (faultPort p .headReported (takeBrief p st s)) := by
  simp [completeLoad, hf]

theorem completeLoad_of_sound (h : LineHeader) {st : BriefStatus} (hf : st.fault = false) :
    completeLoad p h st s =
      if echoMatches h st = false ∧ atLimit (loadEnded p h st s) (rowOf p h.letter) = true then
        faultPort p .transfer (loadEnded p h st s)
      else loadEnded p h st s := by
  rw [completeLoad, hf]
  rfl

variable {h : LineHeader} {st : BriefStatus} {row : Row}

/-- The end of a load changes its row, its port's record and the reports. -/
theorem loadEnded_eq (hrow : s.row (rowOf p h.letter) = some row) :
    loadEnded p h st s =
      { s with
        rows := put s.rows (rowOf p h.letter) (some (row.complete (echoMatches h st)))
        ports := put s.ports p { s.port p with last := some st, warm := st.warning, link := none }
        reports := warned p st s } := by
  have hfreed : (freeLink p (takeBrief p st s)).row (rowOf p h.letter) = some row := by
    rw [freeLink_takeBrief_eq]
    exact hrow
  change (freeLink p (takeBrief p st s)).updateRow _ _ = _
  rw [updateRow_of_row hfreed, freeLink_takeBrief_eq]

theorem loadEnded_row (hrow : s.row (rowOf p h.letter) = some row) :
    (loadEnded p h st s).row (rowOf p h.letter) = some (row.complete (echoMatches h st)) := by
  rw [loadEnded_eq hrow, State.row, entry_put_same]

theorem atLimit_of_row {r : RowId} (hrow : s.row r = some row) : atLimit s r = true ↔ 16 ≤ row.errors := by
  rw [atLimit, hrow]
  exact decide_eq_true_iff

end

/-- Settles O49. -/
theorem loadCompletes : Obligations.LoadCompletes := by
  intro p st s
  constructor
  · intro hnone
    change execLoadCompletion p st s = _
    rw [execLoadCompletion, onLink_of_other hnone]
  · intro ex row k list hlink hkind hrow hlatch hfault good hgood
    have hshort : ¬ (echoMatches ex.header st = false ∧
        atLimit (loadEnded p ex.header st s) (rowOf p ex.header.letter) = true) := by
      rintro ⟨hbad, hlimit⟩
      rw [atLimit_of_row (loadEnded_row hrow), Row.complete_of_shifting hlatch, hbad] at hlimit
      rcases hgood with hgood | hcount
      · cases hbad.symm.trans hgood
      · exact absurd hcount (Nat.not_lt.mpr hlimit)
    change execLoadCompletion p st s = _
    rw [execLoadCompletion, onLink_of_link hlink hkind]
    dsimp only
    rw [completeLoad_of_sound _ hfault, if_neg hshort, loadEnded_eq hrow, Row.complete_of_shifting hlatch]
    rfl

end Sys2Proof.Machine
end

section
/-! PROOF. A READY port that enters FAULT (R95, R129): what a fault does to its port, its rows and the reports, and the
three ways to it (O50). -/

namespace Sys2Proof.Machine

/-! ### Both latches emptied -/

section
variable {s : State} {p : PortId}

/-- Emptying a latch changes nothing but row channels and ports. -/
theorem clearLatch_eq (r : RowId) (s : State) :
    clearLatch r s = { s with rows := (clearLatch r s).rows, ports := (clearLatch r s).ports } := by
  unfold clearLatch
  split <;> rfl

theorem clearLatches_eq (p : PortId) (s : State) :
    clearLatches p s = { s with rows := (clearLatches p s).rows, ports := (clearLatches p s).ports } := by
  rw [clearLatches, clearLatch_eq (rowOf p .B), clearLatch_eq (rowOf p .A)]

theorem clearLatches_row_of_port (p : PortId) (l : Letter) (s : State) :
    (clearLatches p s).row (rowOf p l) = (s.row (rowOf p l)).map fun row => { row with latch := .empty } := by
  cases l with
  | A => rw [clearLatches, clearLatch_row_of_ne (rowOf_ne (by decide)), clearLatch_row]
  | B => rw [clearLatches, clearLatch_row, clearLatch_row_of_ne (rowOf_ne (by decide))]

theorem clearLatches_row_of_ne {r : RowId} (h : portOf r ≠ p) (s : State) : (clearLatches p s).row r = s.row r := by
  have hne : ∀ l, rowOf p l ≠ r := fun l he => h (he ▸ portOf_rowOf p l)
  rw [clearLatches, clearLatch_row_of_ne (hne _), clearLatch_row_of_ne (hne _)]

theorem clearLatches_port_of_ne {q : PortId} (h : q ≠ p) (s : State) : (clearLatches p s).port q = s.port q := by
  have hne : ∀ l, portOf (rowOf p l) ≠ q := fun l he => h (he.symm.trans (portOf_rowOf p l))
  rw [clearLatches, clearLatch_port, if_neg (hne _), clearLatch_port, if_neg (hne _)]

/-- The record of a port whose rows' latches are emptied keeps its state, cause, last status and warm flag. -/
theorem clearLatches_rowsOnly (p : PortId) (s : State) : RowsOnly s (clearLatches p s) :=
  ((rowEvent_clearLatch (rowOf p .A) s).trans (rowEvent_clearLatch (rowOf p .B) _)).toRowsOnly

/-! ### Waiting shifts withdrawn (R126, R131) -/

theorem filter_shift_of_not_mem {l : Letter} {waiting : List Requester} (h : Requester.shift l ∉ waiting) :
    waiting.filter (fun q => q ≠ .shift l) = waiting :=
  List.filter_eq_self.mpr fun _ hq => decide_eq_true fun he => h (he ▸ hq)

/-- A cut load's shift leaves the requesters, where the latch says whether it waits. -/
theorem releaseLink_waiting {l : Letter} {latch : Latch} {q : Port}
    (hwaits : latch.waits = true ↔ Requester.shift l ∈ q.waiting) :
    (releaseLink l latch q).waiting = q.waiting.filter fun x => x ≠ .shift l := by
  cases hw : latch.waits with
  | true =>
    obtain ⟨k, list, rfl⟩ := Latch.eq_of_waits hw
    rfl
  | false =>
    have hsame : (releaseLink l latch q).waiting = q.waiting := by
      unfold releaseLink
      split
      · cases hw
      all_goals rfl
    rw [hsame, filter_shift_of_not_mem fun hmem => by rw [hwaits.mpr hmem] at hw; cases hw]

theorem clearLatch_waiting {bare : RowId → Prop} (ok : SeatsOk bare s) (p : PortId) (l : Letter) :
    ((clearLatch (rowOf p l) s).port p).waiting = (s.port p).waiting.filter fun q => q ≠ .shift l := by
  rw [clearLatch_port, if_pos (portOf_rowOf p l)]
  cases hrow : s.row (rowOf p l) with
  | some row =>
    rw [letterOf_rowOf]
    exact releaseLink_waiting (ok.seat hrow).waits_iff
  | none =>
    refine (filter_shift_of_not_mem fun hmem => ?_).symm
    have := (ok p).waiting l hmem
    rw [hrow] at this
    cases this

theorem eq_query_iff (q : Requester) : q = .query ↔ q ≠ .shift .A ∧ q ≠ .shift .B := by
  cases q with
  | query => simp
  | shift l => cases l <;> simp

/-- Only queries go on waiting. -/
theorem clearLatches_waiting {bare : RowId → Prop} (ok : SeatsOk bare s) (p : PortId) :
    ((clearLatches p s).port p).waiting = (s.port p).waiting.filter fun q => q = .query := by
  rw [clearLatches, clearLatch_waiting (seatsOk_clearLatch ok _), clearLatch_waiting ok, List.filter_filter]
  refine List.filter_congr fun q _ => ?_
  simp only [eq_query_iff, Bool.decide_and, Bool.and_comm]

/-! ### The fault -/

/-- What a fault of port p does to the part u that it meets, the link freed with it: t is the part after it. -/
structure Faulted (p : PortId) (cause : FaultCause) (u t : State) : Prop where
  state : (t.port p).state = .fault
  cause_eq : (t.port p).cause = cause
  link : (t.port p).link = none
  last : (t.port p).last = (u.port p).last
  warm : (t.port p).warm = (u.port p).warm
  waiting : (t.port p).waiting = ((clearLatches p u).port p).waiting
  reports : t.reports =
    { queue := postTo u.motion.pos (.headFault p) (.fault cause) u.reports.queue, attention := true }
  own_rows : ∀ l, t.row (rowOf p l) = (u.row (rowOf p l)).map fun row => { row with latch := .empty }
  other_rows : ∀ r, portOf r ≠ p → t.row r = u.row r
  other_ports : ∀ q, q ≠ p → t.port q = u.port q
  rest : t = { u with rows := t.rows, ports := t.ports, reports := t.reports }

theorem freeLink_port_same (p : PortId) (s : State) :
    (freeLink p s).port p = { s.port p with link := none } := State.port_updatePort_same s p _

theorem freeLink_port_of_ne {q : PortId} (h : q ≠ p) (s : State) : (freeLink p s).port q = s.port q :=
  (State.port_updatePort s p q _).trans (if_neg (Ne.symm h))

theorem faultPort_port_same (cause : FaultCause) (h : (s.port p).state = .ready) :
    (faultPort p cause s).port p = { (clearLatches p s).port p with state := .fault, cause := cause } := by
  rw [faultPort_ready cause h, post_port, State.port_updatePort_same]

theorem faultPort_port_of_ne (cause : FaultCause) (h : (s.port p).state = .ready) {q : PortId} (hq : q ≠ p) :
    (faultPort p cause s).port q = s.port q := by
  rw [faultPort_ready cause h, post_port, State.port_updatePort, if_neg (Ne.symm hq), clearLatches_port_of_ne hq]

theorem faultPort_rows (cause : FaultCause) (h : (s.port p).state = .ready) :
    (faultPort p cause s).rows = (clearLatches p s).rows := by
  rw [faultPort_ready cause h]
  rfl

theorem faultPort_reports (cause : FaultCause) (h : (s.port p).state = .ready) :
    (faultPort p cause s).reports =
      { queue := postTo s.motion.pos (.headFault p) (.fault cause) s.reports.queue, attention := true } := by
  rw [faultPort_ready cause h, post_reports, clearLatches_eq]
  rfl

theorem faultPort_eq (cause : FaultCause) (h : (s.port p).state = .ready) :
    faultPort p cause s = { s with
      rows := (faultPort p cause s).rows
      ports := (faultPort p cause s).ports
      reports := (faultPort p cause s).reports } := by
  rw [faultPort_ready cause h, clearLatches_eq]
  rfl

theorem faulted_freeLink_faultPort (cause : FaultCause) (h : (s.port p).state = .ready) :
    Faulted p cause s (freeLink p (faultPort p cause s)) := by
  have hport := (freeLink_port_same p _).trans
    (congrArg (fun q => { q with link := none }) (faultPort_port_same cause h))
  have hrow : ∀ r, (freeLink p (faultPort p cause s)).row r = (clearLatches p s).row r :=
    State.row_congr (faultPort_rows cause h)
  have hold := (clearLatches_rowsOnly p s).ports p
  exact
    { state := by rw [hport]
      cause_eq := by rw [hport]
      link := by rw [hport]
      last := by rw [hport, hold.2.2.1]
      warm := by rw [hport, hold.2.2.2]
      waiting := by rw [hport]
      reports := faultPort_reports cause h
      own_rows := fun l => (hrow _).trans (clearLatches_row_of_port p l s)
      other_rows := fun r hr => (hrow r).trans (clearLatches_row_of_ne hr s)
      other_ports := fun q hq => (freeLink_port_of_ne hq _).trans (faultPort_port_of_ne cause h hq)
      rest := by
        rw [faultPort_eq cause h]
        rfl }

theorem freeLink_of_free (h : (s.port p).link = none) : freeLink p s = s := by
  have hentry : (entry s.ports p).link = none := h
  rw [freeLink, State.updatePort, ← hentry, put_entry]

theorem clearLatch_free (h : (s.port p).link = none) (r : RowId) : ((clearLatch r s).port p).link = none := by
  rw [clearLatch_port]
  split
  · split
    · rw [releaseLink_link, h, ite_self]
    · exact h
  · exact h

/-- A fault frees nothing more where the link is free already (a sixteenth mismatch follows an answer, R83). -/
theorem faulted_faultPort (cause : FaultCause) (h : (s.port p).state = .ready) (hfree : (s.port p).link = none) :
    Faulted p cause s (faultPort p cause s) := by
  have hlink : ((faultPort p cause s).port p).link = none := by
    rw [faultPort_port_same cause h]
    exact clearLatch_free (clearLatch_free hfree _) _
  exact freeLink_of_free hlink ▸ faulted_freeLink_faultPort cause h

end

/-! ### The three ways to a fault -/

/-- What a load's answer, or its silence, has done by the time port p faults: `u` is the part that the fault meets. -/
structure BeforeFault (p : PortId) (answer : Option BriefStatus) (s u : State) : Prop where
  seats : ∃ bare, SeatsOk bare u
  ready : (u.port p).state = .ready
  last : (u.port p).last = answer.or (s.port p).last
  warm : (u.port p).warm = (answer.map (·.warning)).getD (s.port p).warm
  waiting : (u.port p).waiting = (s.port p).waiting
  reports : u.reports = (match answer with | some st => warned p st s | none => s.reports)
  other_rows : ∀ r, portOf r ≠ p → u.row r = s.row r
  other_ports : ∀ q, q ≠ p → u.port q = s.port q
  rest : u = { s with rows := u.rows, ports := u.ports, reports := u.reports }

section
variable {s : State} {p : PortId} {ex : Exchange} {st : BriefStatus}

theorem beforeFault_silence (ok : SeatsOk noRow s) (hready : (s.port p).state = .ready) : BeforeFault p none s s where
  seats := ⟨_, ok⟩
  ready := hready
  last := rfl
  warm := rfl
  waiting := rfl
  reports := rfl
  other_rows := fun _ _ => rfl
  other_ports := fun _ _ => rfl
  rest := rfl

theorem takeBrief_port_same (p : PortId) (st : BriefStatus) (s : State) :
    (takeBrief p st s).port p = { s.port p with last := some st, warm := st.warning } := by
  rw [takeBrief_eq]
  exact entry_put_same _ _ _

theorem takeBrief_port_of_ne {q : PortId} (h : q ≠ p) (st : BriefStatus) (s : State) :
    (takeBrief p st s).port q = s.port q := by
  rw [takeBrief_eq]
  exact entry_put_of_ne _ _ (Ne.symm h)

theorem beforeFault_takeBrief (ok : SeatsOk noRow s) (hready : (s.port p).state = .ready) (st : BriefStatus) :
    BeforeFault p (some st) s (takeBrief p st s) where
  seats := ⟨_, seatsOk_takeBrief ok p st⟩
  ready := (congrArg Port.state (takeBrief_port_same p st s)).trans hready
  last := congrArg Port.last (takeBrief_port_same p st s)
  warm := congrArg Port.warm (takeBrief_port_same p st s)
  waiting := by rw [takeBrief_port_same p st s]
  reports := by rw [takeBrief_eq]
  other_rows := fun r _ => State.row_congr (takeBrief_frame p st s).1 r
  other_ports := fun _ hq => takeBrief_port_of_ne hq st s
  rest := by rw [takeBrief_eq]

theorem loadEnded_port_same {h : LineHeader} {row : Row} (hrow : s.row (rowOf p h.letter) = some row) :
    (loadEnded p h st s).port p = { s.port p with last := some st, warm := st.warning, link := none } := by
  rw [loadEnded_eq hrow]
  exact entry_put_same _ _ _

theorem loadEnded_row_of_ne {h : LineHeader} {row : Row} (hrow : s.row (rowOf p h.letter) = some row) {r : RowId}
    (hr : rowOf p h.letter ≠ r) : (loadEnded p h st s).row r = s.row r := by
  rw [loadEnded_eq hrow]
  exact entry_put_of_ne _ _ hr

theorem beforeFault_loadEnded (ok : SeatsOk noRow s) (hready : (s.port p).state = .ready) {h : LineHeader} {row : Row}
    (hcarried : carriedLoad (s.port p).link = some (h.letter, h.tag)) (hrow : s.row (rowOf p h.letter) = some row) :
    BeforeFault p (some st) s (loadEnded p h st s) where
  seats :=
    ⟨_, seatsOk_loadEnded (worn := True) (seatsOk_takeBrief ok p st) (echoMatches h st)
      (by rw [(takeBrief_port p st s p).2, hcarried]) fun hn => absurd trivial hn⟩
  ready := (congrArg Port.state (loadEnded_port_same hrow)).trans hready
  last := congrArg Port.last (loadEnded_port_same hrow)
  warm := congrArg Port.warm (loadEnded_port_same hrow)
  waiting := by rw [loadEnded_port_same hrow]
  reports := by rw [loadEnded_eq hrow]
  other_rows := fun r hr => loadEnded_row_of_ne hrow fun he => hr (he ▸ portOf_rowOf p h.letter)
  other_ports := fun q hq => by
    rw [loadEnded_eq hrow]
    exact entry_put_of_ne _ _ (Ne.symm hq)
  rest := by rw [loadEnded_eq hrow]

theorem exec_loadNoAnswer (hlink : (s.port p).link = some ex) (hkind : ex.header.kind = .load) :
    exec (.loadNoAnswer p) s = .next (freeLink p (faultPort p .noAnswer s)) := by
  change execLoadNoAnswer p s = _
  rw [execLoadNoAnswer, onLink_of_link hlink hkind]

theorem exec_loadCompletion (hlink : (s.port p).link = some ex) (hkind : ex.header.kind = .load) :
    exec (.loadCompletion p st) s = .next (completeLoad p ex.header st s) := by
  change execLoadCompletion p st s = _
  rw [execLoadCompletion, onLink_of_link hlink hkind]

/-- A sixteenth mismatch fails the load, and the port faults after the answer. -/
theorem completeLoad_of_limit {h : LineHeader} {row : Row} {k : Nat} {list : CodeList}
    (hrow : s.row (rowOf p h.letter) = some row) (hlatch : row.latch = .loading k (.shifting list))
    (hf : st.fault = false) (hbad : echoMatches h st = false) (hcount : row.errors = 15) :
    completeLoad p h st s = faultPort p .transfer (loadEnded p h st s) := by
  have hlimit : atLimit (loadEnded p h st s) (rowOf p h.letter) = true := by
    rw [atLimit_of_row (loadEnded_row hrow), Row.complete_of_shifting hlatch, hbad, if_neg Bool.false_ne_true, hcount]
  rw [completeLoad_of_sound h hf, if_pos ⟨hbad, hlimit⟩]

/-- The rows' latches emptied after a sixteenth mismatch: the count of the load's row stands at 16. -/
theorem rows_after_limit {h : LineHeader} {row : Row} {k : Nat} {list : CodeList}
    (hrow : s.row (rowOf p h.letter) = some row) (hlatch : row.latch = .loading k (.shifting list))
    (hbad : echoMatches h st = false) (hcount : row.errors = 15) (l : Letter) :
    ((loadEnded p h st s).row (rowOf p l)).map (fun row => { row with latch := .empty }) =
      (s.row (rowOf p l)).map fun row =>
        { row with latch := .empty, errors := if l = h.letter then 16 else row.errors } := by
  by_cases hl : l = h.letter
  · subst hl
    rw [loadEnded_row hrow, hrow, Row.complete_of_shifting hlatch, hbad]
    simp [hcount]
  · rw [loadEnded_row_of_ne hrow (rowOf_ne (Ne.symm hl))]
    simp [hl]

/-- The course of a fault: command c, on `s`, brings the part to `u`, which the fault then takes to `t`. The count of
the load's row, of letter m, stands at 16 where mismatches are the cause. -/
structure FaultCourse (c : Instr) (p : PortId) (m : Letter) (answer : Option BriefStatus) (cause : FaultCause)
    (s u t : State) : Prop where
  exec_eq : exec c s = .next t
  before : BeforeFault p answer s u
  faulted : Faulted p cause u t
  rows : ∀ l, (u.row (rowOf p l)).map (fun row => { row with latch := .empty }) = (s.row (rowOf p l)).map fun row =>
    { row with latch := .empty, errors := if cause = .transfer ∧ l = m then 16 else row.errors }

section
variable (ok : SeatsOk noRow s) (hready : (s.port p).state = .ready) (hlink : (s.port p).link = some ex)
  (hkind : ex.header.kind = .load)
include ok hready hlink hkind

theorem faultCourse_silence :
    FaultCourse (.loadNoAnswer p) p ex.header.letter none .noAnswer s s (freeLink p (faultPort p .noAnswer s)) where
  exec_eq := exec_loadNoAnswer hlink hkind
  before := beforeFault_silence ok hready
  faulted := faulted_freeLink_faultPort _ hready
  rows := fun l => by simp

theorem faultCourse_reported (hfault : st.fault = true) :
    FaultCourse (.loadCompletion p st) p ex.header.letter (some st) .headReported s (takeBrief p st s)
      (completeLoad p ex.header st s) where
  exec_eq := exec_loadCompletion hlink hkind
  before := beforeFault_takeBrief ok hready st
  faulted := by
    rw [completeLoad_of_fault _ hfault]
    exact faulted_freeLink_faultPort _ (beforeFault_takeBrief ok hready st).ready
  rows := fun l => by
    rw [State.row_congr (takeBrief_frame p st s).1]
    simp

theorem faultCourse_limit {row : Row} (hsound : st.fault = false) (hrow : s.row (rowOf p ex.header.letter) = some row)
    (hcount : row.errors = 15) (hbad : echoMatches ex.header st = false) :
    FaultCourse (.loadCompletion p st) p ex.header.letter (some st) .transfer s (loadEnded p ex.header st s)
      (completeLoad p ex.header st s) := by
  have hcarried : carriedLoad (s.port p).link = some (ex.header.letter, ex.header.tag) := by
    rw [hlink]
    exact if_pos hkind
  obtain ⟨-, x, k, list, hx, hlatch⟩ := carried_row ok hcarried
  obtain rfl := Option.some.inj (hrow.symm.trans hx)
  have hbefore := beforeFault_loadEnded (st := st) ok hready hcarried hrow
  refine ⟨exec_loadCompletion hlink hkind, hbefore, ?_, fun l => ?_⟩
  · rw [completeLoad_of_limit hrow hlatch hsound hbad hcount]
    exact faulted_faultPort _ hbefore.ready (by rw [loadEnded_port_same hrow])
  · simpa using rows_after_limit hrow hlatch hbad hcount l

end

end

/-- Settles O50. -/
theorem portFaults : Obligations.PortFaults := by
  refine ⟨fun p s hnone => ?_, fun p ex s hready hlink hkind => ?_, ?_⟩
  · change execLoadNoAnswer p s = _
    rw [execLoadNoAnswer, onLink_of_other hnone]
  · have ht := faulted_freeLink_faultPort .noAnswer hready
    exact ⟨_, exec_loadNoAnswer hlink hkind, ht.state, ht.cause_eq, ht.link, ht.last, ht.warm, ht.reports, ht.own_rows⟩
  · intro answer cause p ex s hready hlink hkind hok hcase c warned
    have hseats := (rowsOk_iff.mp hok).1
    obtain ⟨u, t, hcourse⟩ : ∃ u t, FaultCourse c p ex.header.letter answer cause s u t := by
      cases answer with
      | none =>
        obtain rfl := hcase
        exact ⟨_, _, faultCourse_silence hseats hready hlink hkind⟩
      | some st =>
        rcases hcase with ⟨hfault, rfl⟩ | ⟨hsound, rfl, ⟨row, hrow, hcount⟩, hecho⟩
        · exact ⟨_, _, faultCourse_reported hseats hready hlink hkind hfault⟩
        · exact ⟨_, _, faultCourse_limit hseats hready hlink hkind hsound hrow hcount (echoMatches_eq_false.mpr hecho)⟩
    obtain ⟨hexec, hu, ht, hrows⟩ := hcourse
    obtain ⟨bare, hbare⟩ := hu.seats
    have hqueue : u.reports.queue = warned := by
      rw [hu.reports]
      cases answer with
      | none => rfl
      | some st => exact apply_ite Reports.queue _ _ _
    have hmotion : u.motion = s.motion := by rw [hu.rest]
    refine ⟨t, hexec, ht.state, ht.cause_eq, ht.link, ht.last.trans hu.last, ht.warm.trans hu.warm, ?_, ?_,
      fun l => (ht.own_rows l).trans (hrows l), fun r hr => (ht.other_rows r hr).trans (hu.other_rows r hr),
      fun q hq => (ht.other_ports q hq).trans (hu.other_ports q hq), ?_⟩
    · rw [ht.waiting, clearLatches_waiting hbare, hu.waiting]
    · rw [ht.reports, hqueue, hmotion]
    · rw [ht.rest, hu.rest]
      simp

end Sys2Proof.Machine
end

section
/-! PROOF. The recovery probe (R96, R132, R135): what a recovered port's rows are, row by row, what their loads leave
alone, and the probe's three outcomes (O53). -/

namespace Sys2Proof.Machine

/-! ### What a load leaves alone -/

theorem geometry_eq {g g' : Geometry} (hheads : g'.heads = g.heads) (hmasks : g'.masks = g.masks)
    (hdefects : g'.defects = g.defects) (hchangeovers : g'.changeovers = g.changeovers) : g' = g := by
  cases g
  cases g'
  congr

/-- The beginning of a load closes no changeover and loads no table. -/
theorem beginLoad_geometry (n : Nat) (r : RowId) (s : State) : (beginLoad n r s).geometry = s.geometry := by
  cases hrow : s.row r with
  | none => simp [beginLoad, hrow]
  | some row =>
    cases hc : row.cursor with
    | none => rw [beginLoad_idle hrow hc]
    | some c =>
      have hevent := rowEvent_beginLoad n r s
      have hload := loadStep_beginLoad (n := n) hrow hc
      exact geometry_eq hevent.heads hevent.masks hevent.defects hload.changeovers

/-! ### A row that recovers (R96) -/

/-- A row once its port has recovered: its count is 0, its place and its drive stay, and a working row's load has
begun. -/
structure RowRecovered (row row' : Row) : Prop where
  cursor : row'.cursor = row.cursor
  fire : row'.fire = row.fire
  drive : row'.drive = row.drive
  errors : row'.errors = 0
  working : ∀ c, row.cursor = some c → ∃ ctx, row'.latch = .loading c.line (.assembling ctx)
  idle : row.cursor = none → row'.latch = row.latch

section
variable {s : State} {p : PortId} {r : RowId} {row : Row}

theorem recoverRow_ports (n : Nat) (r : RowId) (s : State) : (recoverRow n r s).ports = s.ports :=
  beginLoad_ports n r _

theorem recoverRow_geometry (n : Nat) (r : RowId) (s : State) : (recoverRow n r s).geometry = s.geometry :=
  beginLoad_geometry n r _

theorem recoverRow_row (n : Nat) (hrow : s.row r = some row) (hready : (s.port (portOf r)).state = .ready) :
    ∃ row', (recoverRow n r s).row r = some row' ∧ RowRecovered row row' := by
  have hreset : (s.updateRow r fun row => { row with errors := 0 }).row r = some { row with errors := 0 } := by
    rw [State.row_updateRow_same, hrow, Option.map_some]
  unfold recoverRow
  cases hc : row.cursor with
  | none =>
    rw [beginLoad_idle hreset hc]
    exact ⟨_, hreset, rfl, rfl, rfl, rfl, fun c h => (Option.some_ne_none c (h.symm.trans hc)).elim,
      fun _ => rfl⟩
  | some c =>
    obtain ⟨image, hload⟩ := beginLoadAt_row (n := n) (c := c) hreset
    rw [beginLoad_eq hreset hc]
    refine ⟨_, (congrArg (State.row · r) (if_pos hready)).trans hload, rfl, rfl, rfl, rfl, fun d h => ?_, fun h =>
      (Option.some_ne_none c (hc.symm.trans h)).elim⟩
    obtain rfl := Option.some.inj (hc.symm.trans h)
    exact ⟨_, rfl⟩

/-! ### The rows of a port that recovers -/

theorem recoverRows_ports (n : Nat) (rs : List RowId) (s : State) : (recoverRows n rs s).ports = s.ports := by
  induction rs generalizing s with
  | nil => rfl
  | cons r rs ih => exact (ih _).trans (recoverRow_ports n r s)

theorem recoverRows_geometry (n : Nat) (rs : List RowId) (s : State) : (recoverRows n rs s).geometry = s.geometry := by
  induction rs generalizing s with
  | nil => rfl
  | cons r rs ih => exact (ih _).trans (recoverRow_geometry n r s)

theorem recoverRows_row_of_not_mem (n : Nat) {rs : List RowId} (h : r ∉ rs) (s : State) :
    (recoverRows n rs s).row r = s.row r := by
  induction rs generalizing s with
  | nil => rfl
  | cons q rs ih =>
    obtain ⟨hq, hrs⟩ := not_or.mp (mt List.mem_cons.mpr h)
    exact (ih hrs _).trans (recoverRow_row_of_ne n (Ne.symm hq) s)

theorem recoverRows_row (n : Nat) {rs : List RowId} (hrs : rs.Nodup) (h : r ∈ rs) (hrow : s.row r = some row)
    (hready : (s.port (portOf r)).state = .ready) :
    ∃ row', (recoverRows n rs s).row r = some row' ∧ RowRecovered row row' := by
  induction rs generalizing s with
  | nil => cases h
  | cons q rs ih =>
    obtain ⟨hq, hrs⟩ := List.nodup_cons.mp hrs
    rcases List.mem_cons.mp h with rfl | hmem
    · obtain ⟨row', hrow', hrec⟩ := recoverRow_row n hrow hready
      exact ⟨row', (recoverRows_row_of_not_mem n hq _).trans hrow', hrec⟩
    · have hne : q ≠ r := fun he => hq (he ▸ hmem)
      refine ih hrs hmem ((recoverRow_row_of_ne n hne s).trans hrow) ?_
      rw [State.port_congr (recoverRow_ports n q s), hready]

theorem mem_portRows {env : Outside} : r ∈ portRows env p ↔ portOf r = p := by
  simp [portRows, mem_rowOrder]

theorem portRows_nodup (env : Outside) (p : PortId) : (portRows env p).Nodup := (rowOrder_nodup env).filter _

end

/-! ### The probe's outcome (R132, R135) -/

section
variable {s : State} {p : PortId} {ex : Exchange} {st : BriefStatus}

theorem probing_recovery (hbusy : s.link.busy = some (.clearFault p .probe)) (hlink : (s.port p).link = some ex)
    (hkind : ex.header.kind = .probe) : probing s p = some (.clearFault p .probe) := by
  simp [probing, onLink_of_link hlink hkind, hbusy]

/-- The part when the recovery probe's answer has been taken and the link is free. -/
def probeTaken (p : PortId) (st : BriefStatus) (env : Outside) (s : State) : State :=
  freeLink p (takeBrief p st (upset env.upsets s))

theorem exec_recoveryProbeAnswer (hbusy : s.link.busy = some (.clearFault p .probe))
    (hlink : (s.port p).link = some ex) (hkind : ex.header.kind = .probe) (hletter : st.letter = .A)
    (htag : st.tag = 0) (env : Outside) :
    exec (.probeAnswer p st env) s = .next
      (endProbe env p (.clearFault p .probe) (probeCause st) (some st) (probeTaken p st env s)) := by
  have hanswers : answersProbe st = true := by simp [answersProbe, hletter, htag]
  change execProbeAnswer p st env s = _
  simp only [execProbeAnswer, probing_recovery hbusy hlink hkind, hanswers, if_true, probeTaken]

/-- What the probe's answer has done by then: the port's record, the reports, and words of image memory that went
wrong. -/
theorem probeTaken_eq (p : PortId) (st : BriefStatus) (env : Outside) (s : State) :
    probeTaken p st env s =
      { s with
        store := { s.store with damage := applyUpsets env.upsets s.store.damage }
        ports := put s.ports p { s.port p with last := some st, warm := st.warning, link := none }
        reports := warned p st s } := freeLink_takeBrief_eq p st (upset env.upsets s)

theorem probeTaken_port (p : PortId) (st : BriefStatus) (env : Outside) (s : State) :
    (probeTaken p st env s).port p = { s.port p with last := some st, warm := st.warning, link := none } := by
  rw [probeTaken_eq]
  exact entry_put_same _ _ _

theorem probeTaken_rows (p : PortId) (st : BriefStatus) (env : Outside) (s : State) :
    (probeTaken p st env s).rows = s.rows := by rw [probeTaken_eq]

theorem probeTaken_link (p : PortId) (st : BriefStatus) (env : Outside) (s : State) :
    (probeTaken p st env s).link = s.link := by rw [probeTaken_eq]

theorem endProbe_of_ready (env : Outside) (hfault : st.fault = false) (hready : st.ready = true) (s : State) :
    endProbe env p (.clearFault p .probe) (probeCause st) (some st) s = recovered env p st s := by
  simp [probeCause, hfault, hready, endProbe]

theorem endProbe_of_failed (env : Outside) (h : st.fault = true ∨ st.ready = false) (s : State) :
    endProbe env p (.clearFault p .probe) (probeCause st) (some st) s =
      recoveryFailed p (if st.fault then .headReported else .notReady) (some st) s := by
  cases hfault : st.fault with
  | true => simp [probeCause, hfault, endProbe]
  | false =>
    have hready : st.ready = false := h.resolve_left (by simp [hfault])
    simp [probeCause, hfault, hready, endProbe]

/-- What the end of CLEAR HEAD FAULT leaves alone. -/
structure RecoveryFrame (p : PortId) (s t : State) : Prop where
  other_rows : ∀ r, portOf r ≠ p → t.row r = s.row r
  other_ports : ∀ q, q ≠ p → t.port q = s.port q
  control : t.control = s.control
  geometry : t.geometry = s.geometry
  motion : t.motion = s.motion
  drives : t.drives = s.drives
  pending : t.pending = s.pending
  memory : t.store.memory = s.store.memory

theorem RecoveryFrame.trans {s t u : State} (h : RecoveryFrame p s t) (k : RecoveryFrame p t u) :
    RecoveryFrame p s u where
  other_rows := fun r hr => (k.other_rows r hr).trans (h.other_rows r hr)
  other_ports := fun q hq => (k.other_ports q hq).trans (h.other_ports q hq)
  control := k.control.trans h.control
  geometry := k.geometry.trans h.geometry
  motion := k.motion.trans h.motion
  drives := k.drives.trans h.drives
  pending := k.pending.trans h.pending
  memory := k.memory.trans h.memory

theorem recoveryFrame_updatePort (s : State) (p : PortId) (f : Port → Port) : RecoveryFrame p s (s.updatePort p f) where
  other_rows := fun _ _ => rfl
  other_ports := fun q hq => (State.port_updatePort s p q f).trans (if_neg (Ne.symm hq))
  control := rfl
  geometry := rfl
  motion := rfl
  drives := rfl
  pending := rfl
  memory := rfl

theorem recoveryFrame_probeTaken (p : PortId) (st : BriefStatus) (env : Outside) (s : State) :
    RecoveryFrame p s (probeTaken p st env s) := by
  rw [probeTaken_eq]
  exact
    { other_rows := fun _ _ => rfl
      other_ports := fun q hq => entry_put_of_ne _ _ (Ne.symm hq)
      control := rfl
      geometry := rfl
      motion := rfl
      drives := rfl
      pending := rfl
      memory := rfl }

theorem recoveryFrame_recoverRows (n : Nat) (env : Outside) (p : PortId) (s : State) :
    RecoveryFrame p s (recoverRows n (portRows env p) s) :=
  have hevent := rowEvent_recoverRows n (portRows env p) s
  { other_rows := fun _ hr => recoverRows_row_of_not_mem n (mt mem_portRows.mp hr) s
    other_ports := fun q _ => State.port_congr (recoverRows_ports n _ s) q
    control := hevent.control
    geometry := recoverRows_geometry n _ s
    motion := hevent.motion
    drives := hevent.drives
    pending := hevent.pending
    memory := hevent.memory }

theorem finishWork_link_congr {s t : State} (h : t.link = s.link) (status : Status) (fields : List Byte) :
    (finishWork status fields t).link = (finishWork status fields s).link := by
  rw [finishWork, finishWork, State.updateLink_link, State.updateLink_link, h]

/-- The part before a recovered port's rows take up their lines. -/
def portReady (p : PortId) (s : State) : State := s.updatePort p fun q => { q with state := .ready, cause := .none }

theorem portReady_port (p : PortId) (s : State) :
    (portReady p s).port p = { s.port p with state := .ready, cause := .none } := State.port_updatePort_same s p _

theorem recovered_port (env : Outside) (p : PortId) (st : BriefStatus) (s : State) :
    (recovered env p st s).port p = { s.port p with state := .ready, cause := .none } :=
  (State.port_congr (recoverRows_ports env.fetched _ _) p).trans (portReady_port p s)

theorem recovered_row (env : Outside) (p : PortId) (st : BriefStatus) {s : State} {l : Letter} {row : Row}
    (hrow : s.row (rowOf p l) = some row) :
    ∃ row', (recovered env p st s).row (rowOf p l) = some row' ∧ RowRecovered row row' := by
  refine recoverRows_row (s := portReady p s) env.fetched (portRows_nodup env p)
    (mem_portRows.mpr (portOf_rowOf p l)) hrow ?_
  rw [portOf_rowOf, portReady_port]

theorem recoveryFrame_recovered (env : Outside) (p : PortId) (st : BriefStatus) (s : State) :
    RecoveryFrame p s (recovered env p st s) :=
  { (recoveryFrame_updatePort s p _).trans (recoveryFrame_recoverRows env.fetched env p (portReady p s)) with }

theorem recovered_link (env : Outside) (p : PortId) (st : BriefStatus) (s : State) :
    (recovered env p st s).link =
      (finishWork .ok ([BitVec.ofNat 8 p.val, 1, 0, 1] ++ briefBytes st) s).link :=
  finishWork_link_congr (rowEvent_recoverRows env.fetched (portRows env p) (portReady p s)).link _ _

theorem recoveryFailed_port (p : PortId) (cause : FaultCause) (answer : Option BriefStatus) (s : State) :
    (recoveryFailed p cause answer s).port p = { s.port p with state := .fault, cause := cause } :=
  State.port_updatePort_same s p fun q => { q with state := .fault, cause := cause }

theorem recoveryFailed_link (p : PortId) (st : BriefStatus) (s : State) :
    (recoveryFailed p (if st.fault then .headReported else .notReady) (some st) s).link =
      (finishWork .ok ([BitVec.ofNat 8 p.val, 2, if st.fault then 1 else 4, 1] ++ briefBytes st) s).link := by
  cases st.fault <;> rfl

theorem recoveryFrame_recoveryFailed (p : PortId) (cause : FaultCause) (answer : Option BriefStatus) (s : State) :
    RecoveryFrame p s (recoveryFailed p cause answer s) :=
  { recoveryFrame_updatePort s p fun q => { q with state := .fault, cause := cause } with }

theorem exec_recoveryProbeTimeout (hbusy : s.link.busy = some (.clearFault p .probe))
    (hlink : (s.port p).link = some ex) (hkind : ex.header.kind = .probe) :
    exec (.probeTimeout p) s = .next (recoveryFailed p .noAnswer none (freeLink p s)) := by
  change execProbeTimeout p s = _
  rw [execProbeTimeout, probing_recovery hbusy hlink hkind]
  rfl

end

/-- Settles O53. -/
theorem recoveryProbeOutcome : Obligations.RecoveryProbeOutcome := by
  intro p st env ex s hbusy hlink hkind
  constructor
  · intro hletter htag
    refine ⟨_, exec_recoveryProbeAnswer hbusy hlink hkind hletter htag env, ?_⟩
    by_cases hfailed : st.fault = true ∨ st.ready = false
    · rw [endProbe_of_failed env hfailed]
      have hframe := (recoveryFrame_probeTaken p st env s).trans
        (recoveryFrame_recoveryFailed p (if st.fault then .headReported else .notReady) (some st) _)
      refine ⟨finishWork_busy _ _ _, ?_, ?_, fun hfault hready => ?_, fun _ => ⟨?_, ?_, ?_, ?_⟩, hframe.other_rows,
        hframe.other_ports, hframe.control, hframe.geometry, hframe.motion, hframe.drives, hframe.pending,
        hframe.memory⟩
      · rw [recoveryFailed_port, probeTaken_port]
      · rw [recoveryFailed_port, probeTaken_port]
      · simp [hfault, hready] at hfailed
      · rw [recoveryFailed_port]
      · rw [recoveryFailed_port]
      · exact probeTaken_rows p st env s
      · exact (recoveryFailed_link p st _).trans (finishWork_link_congr (probeTaken_link p st env s) _ _)
    · obtain ⟨hfault, hready⟩ : st.fault = false ∧ st.ready = true := by simpa using hfailed
      rw [endProbe_of_ready env hfault hready]
      have hframe := (recoveryFrame_probeTaken p st env s).trans (recoveryFrame_recovered env p st _)
      refine ⟨finishWork_busy _ _ _, ?_, ?_, fun _ _ => ⟨?_, ?_, fun l row hold => ?_, ?_⟩, fun h => absurd h hfailed,
        hframe.other_rows, hframe.other_ports, hframe.control, hframe.geometry, hframe.motion, hframe.drives,
        hframe.pending, hframe.memory⟩
      · rw [recovered_port, probeTaken_port]
      · rw [recovered_port, probeTaken_port]
      · rw [recovered_port]
      · rw [recovered_port]
      · have htaken := (State.row_congr (probeTaken_rows p st env s) _).trans hold
        obtain ⟨row', hrow', hrec⟩ := recovered_row env p st htaken
        exact ⟨row', hrow', hrec.cursor, hrec.fire, hrec.drive, hrec.errors, hrec.working, hrec.idle⟩
      · exact (recovered_link env p st _).trans (finishWork_link_congr (probeTaken_link p st env s) _ _)
  · rw [exec_recoveryProbeTimeout hbusy hlink hkind, recoveryFailed, freeLink, updatePort_updatePort]
    rfl

end Sys2Proof.Machine
end
